-- ==== Sys2Proof/Word.lean ====
section
/-! DEFINITION. Word.lean: the two word types of CRCB.
Every host register, and every address, is 32 bits (R20, R32, R33, R60); an image access is one byte (R64).
All values are unsigned (R7). -/

namespace Sys2Proof

/-- A 32-bit host register value or image address (R20, R60). -/
abbrev Word := BitVec 32

/-- One byte of the memory image (R64). -/
abbrev Byte := BitVec 8

end Sys2Proof
end

