-- ==== Sys2Proof/Config.lean ====
section
/-! DEFINITION. Config.lean: the parameters of CRCB that the specification fixes (R6).
The other two parameters of R6 are data of the model: the memory image is a field of `Machine.State`, and the number of
CRCB blocks on a platform is the length of the list in `Machine.Platform`.  The specification leaves no value open that
a step reads, so there is no opaque constant here (93_implementation_defined.md decides each open point). -/

namespace Sys2Proof.Config

/-- The word size COMPUTE passes to the Range Validator: "1 byte, fixed" (R6, R108). -/
abbrev computeWordSize : BitVec 8 := 1#8

/-- Bits consumed per image byte (R6, R144): the value `h.left` takes at an ABSORB step. -/
abbrev bitsPerByte : BitVec 4 := 8#4

end Sys2Proof.Config
end

