-- ==== Sys2Proof/Syntax.lean ====
section
/-! DEFINITION. Syntax.lean: the instructions of CRCB, one constructor per row of spec/opcode_table.json, and the two
encoded forms in which the host presents them.

CRCB is driven at two levels (R80): host transactions (format HOSTTX, R81) and commands (format CMD, R84), a command being
the DATA of a host write to CMD.  The first two rows of the table are HOSTTX rows, the other ten are CMD rows. -/

namespace Sys2Proof

/-- One row of spec/opcode_table.json per constructor.  The table writes the illegal opcodes 0x04..0xFF as six rows, one
per position of the opcode's leading one; the free low bits of the opcode are the row's operand. -/
inductive Instr where
  /-- REG_READ (R190): a host read of register IDX.  DATA is ignored in a read (R81). -/
  | regRead (idx : BitVec 4) (data : Word)
  /-- REG_WRITE (R191): a host write of DATA to register IDX. -/
  | regWrite (idx : BitVec 4) (data : Word)
  /-- NOP (R193), opcode 0x00.  `ign` is the ignored field, bits 31:8 of the CMD word (R84). -/
  | nop (ign : BitVec 24)
  /-- COMPUTE (R150), opcode 0x01. -/
  | compute (ign : BitVec 24)
  /-- VALIDATE (R107), opcode 0x02. -/
  | validate (ign : BitVec 24)
  /-- REFLECT (R125), opcode 0x03. -/
  | reflect (ign : BitVec 24)
  /-- ILLEGAL (R194), opcodes 0x04..0x07. -/
  | illegal04 (low : BitVec 2) (ign : BitVec 24)
  /-- ILLEGAL (R194), opcodes 0x08..0x0F. -/
  | illegal08 (low : BitVec 3) (ign : BitVec 24)
  /-- ILLEGAL (R194), opcodes 0x10..0x1F. -/
  | illegal10 (low : BitVec 4) (ign : BitVec 24)
  /-- ILLEGAL (R194), opcodes 0x20..0x3F. -/
  | illegal20 (low : BitVec 5) (ign : BitVec 24)
  /-- ILLEGAL (R194), opcodes 0x40..0x7F. -/
  | illegal40 (low : BitVec 6) (ign : BitVec 24)
  /-- ILLEGAL (R194), opcodes 0x80..0xFF. -/
  | illegal80 (low : BitVec 7) (ign : BitVec 24)
deriving DecidableEq, Repr

/-- The mnemonic of the instruction's row in spec/opcode_table.json. -/
def Instr.mnemonic : Instr → String
  | .regRead _ _ => "REG_READ"
  | .regWrite _ _ => "REG_WRITE"
  | .nop _ => "NOP"
  | .compute _ => "COMPUTE"
  | .validate _ => "VALIDATE"
  | .reflect _ => "REFLECT"
  | .illegal04 _ _ => "ILLEGAL"
  | .illegal08 _ _ => "ILLEGAL"
  | .illegal10 _ _ => "ILLEGAL"
  | .illegal20 _ _ => "ILLEGAL"
  | .illegal40 _ _ => "ILLEGAL"
  | .illegal80 _ _ => "ILLEGAL"

/-- What the host presents, as encoded bits, at one of the two levels of R80.  A command word `c` stands for the host's
write of `c` to CMD, the transaction `WR CMD, c` (R84); that the two spellings do the same is an obligation. -/
inductive HostWord where
  /-- A 37-bit host transaction T (format HOSTTX, R81). -/
  | hosttx (t : BitVec 37)
  /-- A 32-bit command word (format CMD, R84), written to CMD. -/
  | cmd (c : BitVec 32)
deriving DecidableEq, Repr

end Sys2Proof
end

