-- ==== Sys2Proof/WellFormed.lean ====
section
/-! DEFINITION. WellFormed.lean: which instruction terms are transactions a host may issue.
The operand fields carry the widths of the encoding, so the specification leaves one check: DATA "must be 0 in a read and
is ignored there" (R81).  A read with another DATA is still a valid word of the machine (R81 "All 2^37 words are valid
transactions"): the decoder yields it and the machine runs it. -/

namespace Sys2Proof

/-- The host's duty on an instruction's fields (R81). -/
def Instr.wellFormed : Instr → Bool
  | .regRead _ data => data == 0#32
  | .regWrite _ _ => true
  | .nop _ => true
  | .compute _ => true
  | .validate _ => true
  | .reflect _ => true
  | .illegal04 _ _ => true
  | .illegal08 _ _ => true
  | .illegal10 _ _ => true
  | .illegal20 _ _ => true
  | .illegal40 _ _ => true
  | .illegal80 _ _ => true

end Sys2Proof
end

