-- ==== Sys2Proof/Decode.lean ====
section
/-! DEFINITION. Decode.lean: the decoder and the encoder of HOSTTX and CMD words (R81, R84, R85), the opcode table as data,
and the reading of raw bits as one of the two formats. -/

namespace Sys2Proof

/-! ## Fields -/

/-- WE, bit 36 of a host transaction (R81): 1 is a write. -/
def txWe (t : BitVec 37) : Bool := t.getLsbD 36

/-- IDX, bits 35:32 of a host transaction (R81). -/
def txIdx (t : BitVec 37) : BitVec 4 := t.extractLsb' 32 4

/-- DATA, bits 31:0 of a host transaction (R81). -/
def txData (t : BitVec 37) : Word := t.extractLsb' 0 32

/-- The host transaction with the fields WE, IDX, DATA (R81). -/
def packTx (we : BitVec 1) (idx : BitVec 4) (data : Word) : BitVec 37 := we ++ (idx ++ data)

/-- OPC, bits 7:0 of a command word (R84). -/
def cmdOpc (c : Word) : BitVec 8 := c.extractLsb' 0 8

/-- IGN, bits 31:8 of a command word (R84). -/
def cmdIgn (c : Word) : BitVec 24 := c.extractLsb' 8 24

/-- The command word with the fields IGN, OPC (R84). -/
def packCmd (ign : BitVec 24) (opc : BitVec 8) : Word := ign ++ opc

/-! ## The decoder -/

/-- The decoder of a host transaction (R81). -/
def decodeHostTx (t : BitVec 37) : Instr :=
  if txWe t then .regWrite (txIdx t) (txData t) else .regRead (txIdx t) (txData t)

/-- The opcode map (R85).  An illegal opcode, 0x04..0xFF, falls into the table's row of its leading one. -/
def decodeOpc (opc : BitVec 8) (ign : BitVec 24) : Instr :=
  if opc = 0x00#8 then .nop ign
  else if opc = 0x01#8 then .compute ign
  else if opc = 0x02#8 then .validate ign
  else if opc = 0x03#8 then .reflect ign
  else if opc.getLsbD 7 then .illegal80 (opc.extractLsb' 0 7) ign
  else if opc.getLsbD 6 then .illegal40 (opc.extractLsb' 0 6) ign
  else if opc.getLsbD 5 then .illegal20 (opc.extractLsb' 0 5) ign
  else if opc.getLsbD 4 then .illegal10 (opc.extractLsb' 0 4) ign
  else if opc.getLsbD 3 then .illegal08 (opc.extractLsb' 0 3) ign
  else .illegal04 (opc.extractLsb' 0 2) ign

/-- The decoder: total, since every HOSTTX word is a transaction (R81) and every command word has a row (R85). -/
def decode : HostWord → Instr
  | .hosttx t => decodeHostTx t
  | .cmd c => decodeOpc (cmdOpc c) (cmdIgn c)

/-! ## The encoder -/

/-- The encoder, from R81 and from R84, R85. -/
def encode : Instr → HostWord
  | .regRead idx data => .hosttx (packTx 0#1 idx data)
  | .regWrite idx data => .hosttx (packTx 1#1 idx data)
  | .nop ign => .cmd (packCmd ign 0x00#8)
  | .compute ign => .cmd (packCmd ign 0x01#8)
  | .validate ign => .cmd (packCmd ign 0x02#8)
  | .reflect ign => .cmd (packCmd ign 0x03#8)
  | .illegal04 low ign => .cmd (packCmd ign (1#6 ++ low))
  | .illegal08 low ign => .cmd (packCmd ign (1#5 ++ low))
  | .illegal10 low ign => .cmd (packCmd ign (1#4 ++ low))
  | .illegal20 low ign => .cmd (packCmd ign (1#3 ++ low))
  | .illegal40 low ign => .cmd (packCmd ign (1#2 ++ low))
  | .illegal80 low ign => .cmd (packCmd ign (1#1 ++ low))

/-- The opcode a host word writes to CMD, if it writes CMD (R84): `some` OPC for a command word and for a HOSTTX write with
IDX 5, `none` for every other transaction. -/
def HostWord.command : HostWord → Option (BitVec 8)
  | .cmd c => some (cmdOpc c)
  | .hosttx t => if txWe t = true ∧ txIdx t = 5#4 then some (cmdOpc (txData t)) else none

/-! ## Raw bits -/

/-- Why raw bits are no host word. -/
inductive DecodeError where
  /-- Not the length of a CMD word (up to 32 bits) or of a HOSTTX word (33 to 40 bits). -/
  | badLength
  /-- A CMD word with a bit above bit 31. -/
  | commandTooLong
  /-- A HOSTTX word whose bits 39:37 are not 0 (R81). -/
  | reservedBits39to37
deriving DecidableEq, Repr

/-- The host word whose bits are `w`, bit 0 the least significant, in a container of `nbits` bits (log entry 16): up to 32
bits hold a CMD word (R84), 33 to 40 bits a HOSTTX word, "written in the spec as 10 hexadecimal digits (bits 39:37 are 0)"
(R81). -/
def hostWordOfBits (nbits w : Nat) : Except DecodeError HostWord :=
  if nbits = 0 then .error .badLength
  else if nbits ≤ 32 then
    if w < 2 ^ 32 then .ok (.cmd (BitVec.ofNat 32 w)) else .error .commandTooLong
  else if nbits ≤ 40 then
    if w < 2 ^ 37 then .ok (.hosttx (BitVec.ofNat 37 w)) else .error .reservedBits39to37
  else .error .badLength

/-- The number whose bytes are `bs`, the first byte least significant (log entry 16). -/
def natOfBytes : List Byte → Nat
  | [] => 0
  | b :: bs => b.toNat + 256 * natOfBytes bs

/-- The decoder on any bytes: one to four bytes are a CMD word, five a HOSTTX word; anything else is rejected by name. -/
def decodeBytes (bs : List Byte) : Except DecodeError Instr :=
  (hostWordOfBits (8 * bs.length) (natOfBytes bs)).map decode

/-- The instruction the decoder reads from `w`, numbered as spec/opcode_table.json numbers bits; `none` where it rejects. -/
def decodeTableWord (nbits w : Nat) : Option Instr :=
  match hostWordOfBits nbits w with
  | .ok h => some (decode h)
  | .error _ => none

/-! ## The opcode table as data -/

/-- The two word formats of the table (R81, R84). -/
inductive Format where
  | hosttx
  | cmd
deriving DecidableEq, Repr

/-- One row of spec/opcode_table.json: a word `w` of the row's format is the row's when `w &&& mask = pattern`. -/
structure OpcodeRow where
  mnemonic : String
  format : Format
  pattern : Nat
  mask : Nat
deriving DecidableEq, Repr

/-- spec/opcode_table.json, row by row in its order. -/
def opcodeTable : List OpcodeRow := [
  ⟨"REG_READ", .hosttx, 0x0000000000, 0x1000000000⟩,
  ⟨"REG_WRITE", .hosttx, 0x1000000000, 0x1000000000⟩,
  ⟨"NOP", .cmd, 0x00, 0xFF⟩,
  ⟨"COMPUTE", .cmd, 0x01, 0xFF⟩,
  ⟨"VALIDATE", .cmd, 0x02, 0xFF⟩,
  ⟨"REFLECT", .cmd, 0x03, 0xFF⟩,
  ⟨"ILLEGAL", .cmd, 0x04, 0xFC⟩,
  ⟨"ILLEGAL", .cmd, 0x08, 0xF8⟩,
  ⟨"ILLEGAL", .cmd, 0x10, 0xF0⟩,
  ⟨"ILLEGAL", .cmd, 0x20, 0xE0⟩,
  ⟨"ILLEGAL", .cmd, 0x40, 0xC0⟩,
  ⟨"ILLEGAL", .cmd, 0x80, 0x80⟩]

/-- The position of an instruction's row in `opcodeTable`. -/
def Instr.row : Instr → Nat
  | .regRead _ _ => 0
  | .regWrite _ _ => 1
  | .nop _ => 2
  | .compute _ => 3
  | .validate _ => 4
  | .reflect _ => 5
  | .illegal04 _ _ => 6
  | .illegal08 _ _ => 7
  | .illegal10 _ _ => 8
  | .illegal20 _ _ => 9
  | .illegal40 _ _ => 10
  | .illegal80 _ _ => 11

/-- The format of a host word. -/
def HostWord.format : HostWord → Format
  | .hosttx _ => .hosttx
  | .cmd _ => .cmd

/-- The bits of a host word as a number. -/
def HostWord.bits : HostWord → Nat
  | .hosttx t => t.toNat
  | .cmd c => c.toNat

/-- Whether a host word has a row's format and fixed bits. -/
def OpcodeRow.holds (r : OpcodeRow) (w : HostWord) : Bool :=
  decide (r.format = w.format) && decide (w.bits &&& r.mask = r.pattern)

end Sys2Proof
end

