-- ==== Sys2Proof/Machine/State.lean ====
section
/-! DEFINITION. Machine/State.lean: everything the specification gives one CRCB (R20): the host-visible registers (R21), the
engine's hidden state (R45), the memory image it reads (R61), and the model's own two fields: the turns of the agents still
to come (log entry 1) and the value the host got from its last read (log entry 3). -/

namespace Sys2Proof.Machine

/-- `h.phase` (R45): the state of the engine's state machine. -/
inductive Phase where
  | idle
  | absorb
  | shift
  | final
deriving DecidableEq, Repr

/-- The outcome codes of R38 other than OK. -/
inductive ErrorCode where
  /-- Code 1 (R211). -/
  | invalidRegisterWidth
  /-- Code 2 (R212). -/
  | misalignedRange
  /-- Code 3 (R213). -/
  | illegalCommand
deriving DecidableEq, Repr

/-- The memory image as data: (address, byte) pairs in the canonical form `Memory.wf`, addresses strictly rising.  An
address with no entry has no backing storage: R61's `none` (log entry 4). -/
abbrev Memory := List Host.Cell

/-- Whose atomic step comes next (R13, R70): the host presents a transaction, the engine takes its turn, or `rst` is
asserted for one step (R240). -/
inductive Turn where
  | host (w : HostWord)
  | engine
  | reset
deriving DecidableEq, Repr

/-- The state of one CRCB, with the agents around it. -/
structure State where
  /-- CTRL, idx 0 (R23). -/
  ctrl : Word
  /-- POLY, idx 1 (R30). -/
  poly : Word
  /-- SEED, idx 2 (R31). -/
  seed : Word
  /-- START, idx 3 (R32). -/
  startAddr : Word
  /-- END, idx 4 (R33). -/
  endAddr : Word
  /-- STATUS, idx 6 (R35).  CMD, idx 5, has no storage (R34, R195). -/
  status : Word
  /-- RESULT, idx 7 (R39). -/
  result : Word
  /-- REFL_IN, idx 8 (R40). -/
  reflIn : Word
  /-- REFL_WIDTH, idx 9 (R41). -/
  reflWidth : Word
  /-- REFL_OUT, idx 10 (R42). -/
  reflOut : Word
  /-- `h.phase` (R45). -/
  phase : Phase
  /-- `h.acc` (R45), the accumulator. -/
  acc : Word
  /-- `h.cur` (R45, R48), the address of the next byte to read. -/
  cur : Word
  /-- `h.left` (R45), the shifts left to do for the current byte. -/
  left : BitVec 4
  /-- The memory image (R61), owned by the external collaborator; no step changes it (R69, log entry 4). -/
  image : Memory
  /-- The model's own: the agents' turns still to come, the next first; when there is none, the engine moves
  (log entries 1 and 2). -/
  turns : List Turn
  /-- The model's own: the value the host got from its last register read (R190, `h_rdata` of R82; log entry 3). -/
  rdata : Word
deriving DecidableEq, Repr

/-- Why a step could fault.  CRCB "has no traps, no exceptions in the processor sense and no vectors" (R210) and no
encoding traps (R87), so there is no reason, and no step of this model faults (log entry 17); safe, since the type is
empty. -/
inductive Fault where
deriving DecidableEq, Repr

/-- Why a step could be refused. -/
inductive Refusal where
  /-- Raised by a rejected arm of `exec` only, for an instruction without a meaning yet.  No arm is rejected, so nothing
  raises it (log entry 17); it would be safe. -/
  | notModelled (mnemonic : String)
deriving DecidableEq, Repr

/-- The machine right after reset: every register and hidden field as R49 states; no image backed yet, no turn pending, and
no value read by the host (log entries 3 and 4). -/
def State.reset : State where
  ctrl := 0x00010020#32
  poly := 0x04C11DB7#32
  seed := 0x00000000#32
  startAddr := 0x00000000#32
  endAddr := 0x00000000#32
  status := 0x00000000#32
  result := 0x00000000#32
  reflIn := 0x00000000#32
  reflWidth := 0x00000000#32
  reflOut := 0x00000000#32
  phase := .idle
  acc := 0#32
  cur := 0#32
  left := 0#4
  image := []
  turns := []
  rdata := 0#32

end Sys2Proof.Machine
end

