-- ==== Sys2Proof/Machine/Flags.lean ====
section
/-! DEFINITION. Machine/Flags.lean: the fields of STATUS (R35) and the codes of STATUS.ERR (R38).
STATUS is CRCB's only flag register (R44). -/

namespace Sys2Proof.Machine

/-- The code of an error in STATUS.ERR (R38). -/
def ErrorCode.code : ErrorCode → BitVec 4
  | .invalidRegisterWidth => 1#4
  | .misalignedRange => 2#4
  | .illegalCommand => 3#4

/-- STATUS.BUSY, bit 0 (R36). -/
def State.busy (s : State) : Bool := s.status.getLsbD 0

/-- STATUS.DONE, bit 1 (R37). -/
def State.done (s : State) : Bool := s.status.getLsbD 1

/-- STATUS.ERR, bits 7:4 (R38). -/
def State.err (s : State) : BitVec 4 := s.status.extractLsb' 4 4

/-- A STATUS word with BUSY replaced. -/
def setBusy (b : Bool) (w : Word) : Word := (w &&& ~~~0x01#32) ||| (if b then 0x01#32 else 0#32)

/-- A STATUS word with DONE replaced. -/
def setDone (b : Bool) (w : Word) : Word := (w &&& ~~~0x02#32) ||| (if b then 0x02#32 else 0#32)

/-- A STATUS word with ERR replaced. -/
def setErr (e : BitVec 4) (w : Word) : Word := (w &&& ~~~0xF0#32) ||| (e.setWidth 32 <<< 4)

end Sys2Proof.Machine
end

