-- ==== Sys2Proof/Machine/Operands.lean ====
section
/-! DEFINITION. Machine/Operands.lean: the register map (R21, R83), the fields of CTRL (R23) and REFL_WIDTH (R41), the write
and read masks (R190, R191), and the operands of the commands (R86). -/

namespace Sys2Proof.Machine

/-- What a register index names (R21). -/
inductive Reg where
  | ctrl | poly | seed | startAddr | endAddr | cmd | status | result | reflIn | reflWidth | reflOut
  /-- Indices 11 to 15 (R43). -/
  | unmapped
deriving DecidableEq, Repr

/-- IDX decode (R83). -/
def regOf (idx : BitVec 4) : Reg :=
  match idx.toNat with
  | 0 => .ctrl
  | 1 => .poly
  | 2 => .seed
  | 3 => .startAddr
  | 4 => .endAddr
  | 5 => .cmd
  | 6 => .status
  | 7 => .result
  | 8 => .reflIn
  | 9 => .reflWidth
  | 10 => .reflOut
  | _ => .unmapped

/-- A register's offset on a byte-addressed bus (R21): "`offset` is `4 * idx`".  A host transaction carries the index. -/
def busOffset (idx : BitVec 4) : Nat := 4 * idx.toNat

/-- The defined bits of CTRL (R23): "Write mask (bits a write changes): 0x00FF0FFF". -/
def ctrlMask : Word := 0x00FF0FFF#32

/-- The defined bits of STATUS (R190). -/
def statusMask : Word := 0x000000F3#32

/-- The defined bits of REFL_WIDTH (R41, R191). -/
def reflWidthMask : Word := 0x000000FF#32

/-- CTRL.REG_WIDTH, bits 7:0 (R24). -/
def State.regWidth (s : State) : BitVec 8 := s.ctrl.extractLsb' 0 8

/-- The register width W as a bit count, `zext(x[CTRL][7:0])`. -/
def State.width (s : State) : Nat := s.regWidth.toNat

/-- CTRL.REFIN, bit 8 (R25). -/
def State.refin (s : State) : Bool := s.ctrl.getLsbD 8

/-- CTRL.REFOUT, bit 9 (R26). -/
def State.refout (s : State) : Bool := s.ctrl.getLsbD 9

/-- CTRL.FINAL_XOR, bit 10 (R27). -/
def State.finalXor (s : State) : Bool := s.ctrl.getLsbD 10

/-- CTRL.REFOUT_MODE, bit 11 (R28): 1 is apply mode, 0 literal mode. -/
def State.applyMode (s : State) : Bool := s.ctrl.getLsbD 11

/-- CTRL.VAL_WSIZE, bits 23:16 (R29). -/
def State.valWsize (s : State) : BitVec 8 := s.ctrl.extractLsb' 16 8

/-- REFL_WIDTH bits 7:0 (R41), the `widthBits` of REFLECT. -/
def State.reflectWidth (s : State) : BitVec 8 := s.reflWidth.extractLsb' 0 8

/-- The configuration a computation reads, the document's `CrcConfig` (R86, R140). -/
structure CrcConfig where
  /-- `registerWidth` W. -/
  width : Nat
  /-- `polynomial`. -/
  polynomial : Word
  /-- `seed`. -/
  seed : Word
  /-- `reflectInput`. -/
  refin : Bool
  /-- `reflectOutput`. -/
  refout : Bool
  /-- `finalXor`. -/
  finalXor : Bool
  /-- Apply mode (R28), against literal mode. -/
  applyMode : Bool
deriving DecidableEq, Repr

/-- The operands of COMPUTE, other than the range (R86). -/
def State.crcConfig (s : State) : CrcConfig where
  width := s.width
  polynomial := s.poly
  seed := s.seed
  refin := s.refin
  refout := s.refout
  finalXor := s.finalXor
  applyMode := s.applyMode

end Sys2Proof.Machine
end

