-- ==== Sys2Proof/Machine/Ops.lean ====
section
/-! DEFINITION. Machine/Ops.lean: the named operations over the memory image and the registers, and the one way a command
ends with an outcome code (R210).

CRCB has no trap and no return from one (R210, R220): "taking an exception" is here `raiseError`, the completion of the
command being dispatched with an error code, and what takes the code away again is `beginCommand`, the start of the next
command other than NOP (R196). -/

namespace Sys2Proof.Machine

/-! ## The memory image -/

/-- The byte listed for an address number. -/
def Memory.lookup : Memory → Nat → Option Byte
  | [], _ => none
  | (k, b) :: m, a => if k = a then some b else Memory.lookup m a

/-- `MemRead(a, 1)` (R62): the image's byte at a 32-bit address, `none` where it has no backing storage. -/
def Memory.read (m : Memory) (a : Word) : Option Byte := Memory.lookup m a.toNat

/-- The list with the entry of an address number replaced or put in its place. -/
def Memory.insertAt : Memory → Nat → Byte → Memory
  | [], a, b => [(a, b)]
  | (k, c) :: m, a, b =>
    if a < k then (a, b) :: (k, c) :: m
    else if a = k then (a, b) :: m
    else (k, c) :: Memory.insertAt m a b

/-- The image with `b` at address `a`: what the collaborator loads (R61, R244 step 2).  CRCB has no write path to the image. -/
def Memory.put (m : Memory) (a : Word) (b : Byte) : Memory := Memory.insertAt m a.toNat b

/-- The list without the entry of an address number. -/
def Memory.removeAt : Memory → Nat → Memory
  | [], _ => []
  | (k, c) :: m, a => if k = a then m else (k, c) :: Memory.removeAt m a

/-- The image with no backing storage at address `a`. -/
def Memory.unback (m : Memory) (a : Word) : Memory := Memory.removeAt m a.toNat

/-- The image with the bytes `bs` at addresses `a`, `a + 1`, ... (R244 step 2). -/
def Memory.load : Memory → Word → List Byte → Memory
  | m, _, [] => m
  | m, a, b :: bs => Memory.load (Memory.put m a b) (a + 1#32) bs

/-- Addresses strictly rising from at least `lo`, each below 2^32 (R60). -/
def Memory.risingFrom : Nat → Memory → Bool
  | _, [] => true
  | lo, (k, _) :: m => decide (lo ≤ k) && decide (k < 2 ^ 32) && Memory.risingFrom (k + 1) m

/-- The canonical form of an image: equal images are equal lists. -/
def Memory.wf (m : Memory) : Bool := Memory.risingFrom 0 m

/-- The `n` bytes at addresses `a`, `a + 1`, ... in ascending order (R63, R156), if the image gives each. -/
def Memory.readRange (m : Memory) : Word → Nat → Option (List Byte)
  | _, 0 => some []
  | a, n + 1 =>
    match Memory.read m a, Memory.readRange m (a + 1#32) n with
    | some b, some bs => some (b :: bs)
    | _, _ => none

/-- The number of bytes of `[START, END)`: `max(0, toInt(END) - toInt(START))` (R156). -/
def State.rangeLength (s : State) : Nat := s.endAddr.toNat - s.startAddr.toNat

/-- The byte list of a COMPUTE (R156), if the image gives every byte of the range. -/
def State.rangeBytes (s : State) : Option (List Byte) := Memory.readRange s.image s.startAddr s.rangeLength

/-- The collaborator's replacement of the image between steps (R61, R73, R244); not a step of the machine (log entry 4). -/
def State.withImage (s : State) (m : Memory) : State := { s with image := m }

/-! ## Completing a command -/

/-- What every command but NOP does first: clear STATUS.DONE and STATUS.ERR (R196, R37, R38). -/
def beginCommand (s : State) : State := { s with status := setDone false (setErr 0#4 s.status) }

/-- Complete the command being dispatched with an outcome code: ERR takes the code, DONE becomes 1, BUSY stays (R37, R38). -/
def complete (code : BitVec 4) (s : State) : State := { s with status := setDone true (setErr code s.status) }

/-- `raise E(info)` (R8, R210): complete the command being dispatched with STATUS.ERR = code(E). -/
def raiseError (e : ErrorCode) (s : State) : State := complete e.code s

/-! ## The host's access to registers -/

/-- The value a host read returns (R190). -/
def readReg (r : Reg) (s : State) : Word :=
  match r with
  | .ctrl => s.ctrl &&& ctrlMask
  | .poly => s.poly
  | .seed => s.seed
  | .startAddr => s.startAddr
  | .endAddr => s.endAddr
  | .cmd => 0#32
  | .status => s.status &&& statusMask
  | .result => s.result
  | .reflIn => s.reflIn
  | .reflWidth => s.reflWidth &&& reflWidthMask
  | .reflOut => s.reflOut
  | .unmapped => 0#32

/-- What a host write stores while idle (R191); a write to CMD is no store and is dispatched elsewhere (R196). -/
def writeReg (r : Reg) (data : Word) (s : State) : State :=
  match r with
  | .ctrl => { s with ctrl := data &&& ctrlMask }
  | .poly => { s with poly := data }
  | .seed => { s with seed := data }
  | .startAddr => { s with startAddr := data }
  | .endAddr => { s with endAddr := data }
  | .cmd => s
  | .status => s
  | .result => s
  | .reflIn => { s with reflIn := data }
  | .reflWidth => { s with reflWidth := data &&& reflWidthMask }
  | .reflOut => s
  | .unmapped => s

/-- The gate every host write passes: while STATUS.BUSY = 1 it has no effect (R192). -/
def hostWrite (effect : State → State) (s : State) : State := if s.busy then s else effect s

/-! ## Reset -/

/-- A step in which `rst` is asserted (R240, R242): every register and hidden field takes its reset value.  The image, the
turns to come and the value the host already has are not CRCB state and stay. -/
def applyReset (s : State) : State :=
  { State.reset with image := s.image, turns := s.turns, rdata := s.rdata }

end Sys2Proof.Machine
end

