-- ==== Sys2Proof/Machine/Reflector.lean ====
section
/-! DEFINITION. Machine/Reflector.lean: the Bit Reflector (R120, R122) and the REFLECT command (R125). -/

namespace Sys2Proof.Machine

/-- The document's reflector on unbounded naturals (R120): the sum over i < n of v[i] * 2^(w-1-i), taken up to n = w. -/
def reflectDocUpTo (v w : Nat) : Nat → Nat
  | 0 => 0
  | i + 1 => reflectDocUpTo v w i + (if v.testBit i then 2 ^ (w - 1 - i) else 0)

/-- `reflectDoc(v, w)` (R120). -/
def reflectDoc (v w : Nat) : Nat := reflectDocUpTo v w w

/-- The loop of R122 after its first n passes: result bit j is value bit w-1-j, where that is below 32. -/
def reflectLoop (v : Word) (w : Nat) : Nat → Word
  | 0 => 0#32
  | j + 1 => if v.getLsbD (w - 1 - j) then reflectLoop v w j ||| (1#32 <<< j) else reflectLoop v w j

/-- The hardware reflector `reflect(v, w)` (R122). -/
def reflect (v : Word) (w : Nat) : Word := reflectLoop v w (min w 32)

/-- The REFLECT command, while idle (R125). -/
def reflectCommand (s : State) : State :=
  complete 0#4 { beginCommand s with reflOut := reflect s.reflIn s.reflectWidth.toNat }

/-- REFLECT as a write to CMD (R125, R192).  The ignored field has no effect (R84). -/
def execReflect (_ign : BitVec 24) (s : State) : Host.Outcome State Fault Refusal :=
  .next (hostWrite reflectCommand s)

end Sys2Proof.Machine
end

