-- ==== Sys2Proof/Machine/Validator.lean ====
section
/-! DEFINITION. Machine/Validator.lean: the Range Validator (R100) and the VALIDATE command (R107). -/

namespace Sys2Proof.Machine

/-- What the Range Validator answers (R100). -/
inductive Verdict where
  | ok
  | err (e : ErrorCode)
deriving DecidableEq, Repr

/-- Whether a width is one of {8, 16, 32} (R101). -/
def legalWidth (w : BitVec 8) : Bool := w == 8#8 || w == 16#8 || w == 32#8

/-- `validate(start, end, wordSize, registerWidth)` (R100): the width first (R103), then a word size of 0 (R105), then the
length as a mathematical integer (R102); `start <= end` is not checked (R106). -/
def validate (startAddr endAddr : Word) (ws w : BitVec 8) : Verdict :=
  if legalWidth w = false then .err .invalidRegisterWidth
  else if ws = 0#8 then .err .misalignedRange
  else if ((endAddr.toNat : Int) - (startAddr.toNat : Int)) % (ws.toNat : Int) ≠ 0 then .err .misalignedRange
  else .ok

/-- Complete a command as the validator's verdict says (R107). -/
def completeWith (v : Verdict) (s : State) : State :=
  match v with
  | .ok => complete 0#4 s
  | .err e => raiseError e s

/-- The VALIDATE command, while idle (R107): the word size is CTRL.VAL_WSIZE. -/
def validateCommand (s : State) : State :=
  completeWith (validate s.startAddr s.endAddr s.valWsize s.regWidth) (beginCommand s)

/-- VALIDATE as a write to CMD (R107, R192).  The ignored field has no effect (R84). -/
def execValidate (_ign : BitVec 24) (s : State) : Host.Outcome State Fault Refusal :=
  .next (hostWrite validateCommand s)

end Sys2Proof.Machine
end

