-- ==== Sys2Proof/Machine/Engine.lean ====
section
/-! DEFINITION. Machine/Engine.lean: the W-bit datapath of the CRC Engine (R146), the COMPUTE command's acceptance (R150) and
the engine's steps ABSORB, SHIFT and FINAL (R151 to R154).

The formulas are the specification's for W in {8, 16, 32}, the only widths with which the engine runs (R46); on any other
width they are some total extension that no run reaches (log entry 8). -/

namespace Sys2Proof.Machine

/-- `mask(W) = 2^W - 1`, as a 32-bit value (R8, R146). -/
def mask (w : Nat) : Word := BitVec.ofNat 32 (2 ^ w - 1)

/-- `init(seed)` (R146). -/
def initAcc (w : Nat) (seed : Word) : Word := seed &&& mask w

/-- `absorb(acc, b)` (R146, R151): the byte, reflected over 8 bits when REFIN is set, enters the top 8 bits. -/
def absorbAcc (w : Nat) (refin : Bool) (acc : Word) (b : Byte) : Word :=
  acc ^^^ ((if refin then reflect (b.setWidth 32) 8 else b.setWidth 32) <<< (w - 8))

/-- `shift(acc)` (R146, R152): one bit of polynomial division, the condition being bit W-1 before the shift. -/
def shiftAcc (w : Nat) (polynomial acc : Word) : Word :=
  ((acc <<< 1) &&& mask w) ^^^ (if acc.getLsbD (w - 1) then polynomial &&& mask w else 0#32)

/-- The reflection of step 6 (R148): in apply mode with REFOUT the masked accumulator is reflected over W bits; in literal
mode REFOUT has no effect, and the document's discarded `lastByteProcessed` value is not built (log entry 13). -/
def reflectOutput (w : Nat) (refout applyMode : Bool) (r : Word) : Word :=
  if refout && applyMode then reflect r w else r

/-- `final(acc)` (R146, R153): steps 5 to 7. -/
def finalAcc (w : Nat) (refout applyMode finalXor : Bool) (acc : Word) : Word :=
  if finalXor then reflectOutput w refout applyMode (acc &&& mask w) ^^^ mask w
  else reflectOutput w refout applyMode (acc &&& mask w)

/-- The phase before a byte: ABSORB while the cursor is below END, else FINAL (R150, R152). -/
def nextPhase (cur endAddr : Word) : Phase := if cur.toNat < endAddr.toNat then .absorb else .final

/-! ## The COMPUTE command -/

/-- A COMPUTE that passes validation starts the engine (R150). -/
def startEngine (s : State) : State :=
  { s with
    acc := initAcc s.width s.seed
    cur := s.startAddr
    left := 0#4
    phase := nextPhase s.startAddr s.endAddr
    status := setBusy true s.status }

/-- A COMPUTE that fails validation leaves RESULT = 0 and the error's code (R150, R216). -/
def rejectCompute (e : ErrorCode) (s : State) : State := raiseError e { s with result := 0#32 }

/-- The COMPUTE command's acceptance, while idle (R150): the validator runs with word size 1 (R108). -/
def computeCommand (s : State) : State :=
  match validate s.startAddr s.endAddr Config.computeWordSize s.regWidth with
  | .err e => rejectCompute e (beginCommand s)
  | .ok => startEngine (beginCommand s)

/-- COMPUTE as a write to CMD (R150, R192).  The ignored field has no effect (R84). -/
def execCompute (_ign : BitVec 24) (s : State) : Host.Outcome State Fault Refusal :=
  .next (hostWrite computeCommand s)

/-! ## The engine's steps -/

/-- The ABSORB step's writes, once the image has given the byte (R151). -/
def absorbByte (b : Byte) (s : State) : State :=
  { s with
    acc := absorbAcc s.width s.refin s.acc b
    left := Config.bitsPerByte
    phase := .shift }

/-- The ABSORB step (R151).  Where the image gives no byte the step is not enabled: the engine waits, and nothing changes
(R62, R155; log entry 7). -/
def absorbStep (s : State) : State :=
  match Memory.read s.image s.cur with
  | some b => absorbByte b s
  | none => s

/-- The cursor's move after a byte's eighth shift (R152). -/
def nextByte (s : State) : State :=
  { s with cur := s.cur + 1#32, phase := nextPhase (s.cur + 1#32) s.endAddr }

/-- The SHIFT step's accumulator and count (R152). -/
def shiftOnce (s : State) : State :=
  { s with acc := shiftAcc s.width s.poly s.acc, left := s.left - 1#4 }

/-- The SHIFT step (R152). -/
def shiftStep (s : State) : State :=
  if (shiftOnce s).left = 0#4 then nextByte (shiftOnce s) else shiftOnce s

/-- The FINAL step (R153): RESULT and completion. -/
def finalStep (s : State) : State :=
  { s with
    result := finalAcc s.width s.refout s.applyMode s.finalXor s.acc
    status := setErr 0#4 (setDone true (setBusy false s.status))
    phase := .idle }

/-- The engine's turn (R154): in IDLE it has no step; in every other phase exactly one step is defined. -/
def engineStep (s : State) : State :=
  match s.phase with
  | .idle => s
  | .absorb => absorbStep s
  | .shift => shiftStep s
  | .final => finalStep s

end Sys2Proof.Machine
end

