-- ==== Sys2Proof/Machine/HostAccess.lean ====
section
/-! DEFINITION. Machine/HostAccess.lean: register reads and writes (R190, R191), command dispatch (R196), NOP (R193) and the
illegal commands (R194). -/

namespace Sys2Proof.Machine

/-- An illegal command, while idle (R194, R213): code 3 and nothing else. -/
def illegalCommand (s : State) : State := raiseError .illegalCommand (beginCommand s)

/-- Command dispatch (R196) on OPC, the written data's bits 7:0. -/
def dispatch (opc : BitVec 8) (s : State) : State :=
  match opc.toNat with
  | 0 => s
  | 1 => computeCommand s
  | 2 => validateCommand s
  | 3 => reflectCommand s
  | _ => illegalCommand s

/-- The effect of a host write while idle (R191): a write to CMD dispatches a command, any other stores. -/
def writeEffect (idx : BitVec 4) (data : Word) (s : State) : State :=
  if regOf idx = .cmd then dispatch (cmdOpc data) s else writeReg (regOf idx) data s

/-- REG_READ (R190): the host gets the register's value; no register changes.  DATA is ignored (R81). -/
def execRegRead (idx : BitVec 4) (_data : Word) (s : State) : Host.Outcome State Fault Refusal :=
  .next { s with rdata := readReg (regOf idx) s }

/-- REG_WRITE (R191, R192). -/
def execRegWrite (idx : BitVec 4) (data : Word) (s : State) : Host.Outcome State Fault Refusal :=
  .next (hostWrite (writeEffect idx data) s)

/-- NOP (R193): no effect, DONE is not cleared. -/
def execNop (_ign : BitVec 24) (s : State) : Host.Outcome State Fault Refusal := .next s

/-- ILLEGAL, opcodes 0x04..0x07 (R194, R192). -/
def execIllegal04 (_low : BitVec 2) (_ign : BitVec 24) (s : State) : Host.Outcome State Fault Refusal :=
  .next (hostWrite illegalCommand s)

/-- ILLEGAL, opcodes 0x08..0x0F (R194, R192). -/
def execIllegal08 (_low : BitVec 3) (_ign : BitVec 24) (s : State) : Host.Outcome State Fault Refusal :=
  .next (hostWrite illegalCommand s)

/-- ILLEGAL, opcodes 0x10..0x1F (R194, R192). -/
def execIllegal10 (_low : BitVec 4) (_ign : BitVec 24) (s : State) : Host.Outcome State Fault Refusal :=
  .next (hostWrite illegalCommand s)

/-- ILLEGAL, opcodes 0x20..0x3F (R194, R192). -/
def execIllegal20 (_low : BitVec 5) (_ign : BitVec 24) (s : State) : Host.Outcome State Fault Refusal :=
  .next (hostWrite illegalCommand s)

/-- ILLEGAL, opcodes 0x40..0x7F (R194, R192). -/
def execIllegal40 (_low : BitVec 6) (_ign : BitVec 24) (s : State) : Host.Outcome State Fault Refusal :=
  .next (hostWrite illegalCommand s)

/-- ILLEGAL, opcodes 0x80..0xFF (R194, R192). -/
def execIllegal80 (_low : BitVec 7) (_ign : BitVec 24) (s : State) : Host.Outcome State Fault Refusal :=
  .next (hostWrite illegalCommand s)

end Sys2Proof.Machine
end

