-- ==== Sys2Proof/Machine/Dispatch.lean ====
section
/-! DEFINITION. Machine/Dispatch.lean: one arm per constructor of Instr, each a direct call of its meaning. -/

namespace Sys2Proof.Machine

def exec (i : Instr) (s : State) : Host.Outcome State Fault Refusal :=
  match i with
  | .regRead idx data => Sys2Proof.Machine.execRegRead idx data s
  | .regWrite idx data => Sys2Proof.Machine.execRegWrite idx data s
  | .nop ign => Sys2Proof.Machine.execNop ign s
  | .compute ign => Sys2Proof.Machine.execCompute ign s
  | .validate ign => Sys2Proof.Machine.execValidate ign s
  | .reflect ign => Sys2Proof.Machine.execReflect ign s
  | .illegal04 low ign => Sys2Proof.Machine.execIllegal04 low ign s
  | .illegal08 low ign => Sys2Proof.Machine.execIllegal08 low ign s
  | .illegal10 low ign => Sys2Proof.Machine.execIllegal10 low ign s
  | .illegal20 low ign => Sys2Proof.Machine.execIllegal20 low ign s
  | .illegal40 low ign => Sys2Proof.Machine.execIllegal40 low ign s
  | .illegal80 low ign => Sys2Proof.Machine.execIllegal80 low ign s

end Sys2Proof.Machine
end

