-- ==== Sys2Proof/Machine/Turns.lean ====
section
/-! DEFINITION. Machine/Turns.lean: whose turn it is and what a turn does (R13, R70, R154, R240).

Host transactions and engine steps "interleave in any order, each atomic" (R70).  The order is the list `turns` of State, so
a claim about every state is a claim about every interleaving (log entry 1).  With no turn listed the engine moves: its steps
"are never disabled by the host" (R250), and in IDLE its turn changes nothing (R154, R227; log entry 2). -/

namespace Sys2Proof.Machine

/-- The turn to take now. -/
def currentTurn (s : State) : Turn :=
  match s.turns with
  | [] => .engine
  | t :: _ => t

/-- The state with that turn taken off the list. -/
def popTurn (s : State) : State := { s with turns := s.turns.tail }

/-- What a turn does: the host's transaction is decoded and executed, the engine takes its step, or reset is applied, in
which case "no host transaction or engine step takes effect" (R240). -/
def runTurn (t : Turn) (s : State) : Host.Outcome State Fault Refusal :=
  match t with
  | .host w => exec (decode w) s
  | .engine => .next (engineStep s)
  | .reset => .next (applyReset s)

/-- The state with a host word as its very next turn; where the bits are no host word nothing is presented. -/
def presentBits (s : State) (nbits w : Nat) : State :=
  match hostWordOfBits nbits w with
  | .ok h => { s with turns := .host h :: s.turns }
  | .error _ => s

end Sys2Proof.Machine
end

