-- ==== Sys2Proof/Machine/Step.lean ====
section
/-! DEFINITION. Machine/Step.lean: one atomic step of the system, and the host's placing of its next transaction. -/

namespace Sys2Proof.Machine

/-- One step: take the next turn off the list and run it. -/
def step (s : State) : Host.Outcome State Fault Refusal :=
  runTurn (currentTurn s) (popTurn s)

/-- `s` with the instruction whose bits are `w`, numbered as spec/opcode_table.json numbers them, presented by the host as
the very next turn (log entry 5). -/
def State.withFetchWord (s : State) (nbits w : Nat) : State := presentBits s nbits w

end Sys2Proof.Machine
end

