-- ==== Sys2Proof/Machine/Platform.lean ====
section
/-! DEFINITION. Machine/Platform.lean: several CRCB blocks over one read-only memory image (R6 `N_INST`, R75, R225).
They share nothing but read access to the image, and a platform step is a step of one of them. -/

namespace Sys2Proof.Machine

/-- The blocks of a platform; `N_INST` is the length of the list. -/
structure Platform where
  blocks : List State
deriving DecidableEq, Repr

/-- All blocks read one image (R75, R225), and there is at least one (R6). -/
def Platform.wf (img : Memory) (p : Platform) : Prop :=
  1 ≤ p.blocks.length ∧ ∀ s ∈ p.blocks, s.image = img

/-- Every block idle at reset (R225), over one image. -/
def Platform.reset (n : Nat) (img : Memory) : Platform where
  blocks := List.replicate n (State.reset.withImage img)

/-- A step of block `k`; there is no other kind of platform step (R225 "There are no inter-instance signals"). -/
def Platform.stepBlock (k : Nat) (p : Platform) : Host.Outcome Platform Fault Refusal :=
  match p.blocks[k]? with
  | none => .next p
  | some s =>
    match step s with
    | .next t => .next { p with blocks := p.blocks.set k t }
    | .fault r => .fault r
    | .refused r => .refused r

end Sys2Proof.Machine
end

