-- ==== Sys2Proof/Machine/Reference.lean ====
section
/-! DEFINITION. Machine/Reference.lean: the document's algorithm over unbounded naturals (R140 to R145, R148, R149), and the
datapath's function over a byte list (R146).  No step calls these: they are what the engine's runs are compared with. -/

namespace Sys2Proof.Machine

/-- One conditional shift of the document's register (R144 c): `msbBit` is bit W (R142). -/
def refShift (w poly reg : Nat) : Nat :=
  if (reg <<< 1) &&& (1 <<< w) ≠ 0 then (reg <<< 1) ^^^ poly else reg <<< 1

/-- A byte's contribution (R144): reflect if asked, XOR into the top 8 bits, shift 8 times. -/
def refByte (w poly : Nat) (refin : Bool) (reg : Nat) (b : Byte) : Nat :=
  Nat.repeat (refShift w poly) 8 (reg ^^^ ((if refin then reflectDoc b.toNat 8 else b.toNat) <<< (w - 8)))

/-- Steps 5 to 8 (R145, R148, R149). -/
def refFinal (w : Nat) (refout applyMode finalXor : Bool) (reg : Nat) : Nat :=
  (if refout && applyMode then reflectDoc (reg &&& (2 ^ w - 1)) w else reg &&& (2 ^ w - 1))
    ^^^ (if finalXor then 2 ^ w - 1 else 0)

/-- `crcRef` (R140): the document's algorithm, `poly = (1 << W) | polynomial` (R142), the seed unmasked (R143). -/
def crcRef (bytes : List Byte) (c : CrcConfig) : Except ErrorCode Nat :=
  if c.width = 8 ∨ c.width = 16 ∨ c.width = 32 then
    .ok (refFinal c.width c.refout c.applyMode c.finalXor
      (bytes.foldl (refByte c.width ((1 <<< c.width) ||| c.polynomial.toNat) c.refin) c.seed.toNat))
  else .error .invalidRegisterWidth

/-- `shift^8(absorb(acc, b))` (R146). -/
def hwByte (c : CrcConfig) (acc : Word) (b : Byte) : Word :=
  Nat.repeat (shiftAcc c.width c.polynomial) 8 (absorbAcc c.width c.refin acc b)

/-- `crcHW` (R146). -/
def crcHW (bytes : List Byte) (c : CrcConfig) : Word :=
  finalAcc c.width c.refout c.applyMode c.finalXor (bytes.foldl (hwByte c) (initAcc c.width c.seed))

end Sys2Proof.Machine
end

