-- ==== Sys2Proof/Machine/Script.lean ====
section
/-! DEFINITION. Machine/Script.lean: the host-script notation and its encodings (R89, R90, R91), as abstract lines (log entry
18).  `POLL`'s loop and `EXPECT`'s check are the host's own control flow, not CRCB's (R90); a line's word is the transaction
it issues. -/

namespace Sys2Proof.Machine

/-- A line of a host script (R89) or a pseudo-instruction (R90). -/
inductive ScriptLine where
  /-- `WR <reg>, <value>`. -/
  | wr (idx : BitVec 4) (value : Word)
  /-- `RD <reg>`. -/
  | rd (idx : BitVec 4)
  /-- `CMD NOP`. -/
  | cmdNop
  /-- `CMD COMPUTE`. -/
  | cmdCompute
  /-- `CMD VALIDATE`. -/
  | cmdValidate
  /-- `CMD REFLECT`. -/
  | cmdReflect
  /-- `POLL`. -/
  | poll
  /-- `EXPECT <reg>, <value>`. -/
  | expect (idx : BitVec 4) (value : Word)
  /-- `CONFIG w, refin, refout, fx, mode, ws`. -/
  | config (w : BitVec 8) (refin refout fx mode : Bool) (ws : BitVec 8)
deriving DecidableEq, Repr

/-- `WR`: T = (1 << 36) | (idx << 32) | value (R89). -/
def encodeWr (idx : BitVec 4) (value : Word) : BitVec 37 :=
  (1#37 <<< 36) ||| (idx.setWidth 37 <<< 32) ||| value.setWidth 37

/-- `RD`: T = (idx << 32) (R89). -/
def encodeRd (idx : BitVec 4) : BitVec 37 := idx.setWidth 37 <<< 32

/-- The CTRL value `CONFIG` builds: `w | refin<<8 | refout<<9 | fx<<10 | mode<<11 | ws<<16` (R90). -/
def configWord (w : BitVec 8) (refin refout fx mode : Bool) (ws : BitVec 8) : Word :=
  w.setWidth 32 ||| ((BitVec.ofBool refin).setWidth 32 <<< 8) ||| ((BitVec.ofBool refout).setWidth 32 <<< 9)
    ||| ((BitVec.ofBool fx).setWidth 32 <<< 10) ||| ((BitVec.ofBool mode).setWidth 32 <<< 11) ||| (ws.setWidth 32 <<< 16)

/-- A line's HOSTTX word (R89, R90, R91). -/
def ScriptLine.word : ScriptLine → BitVec 37
  | .wr idx value => encodeWr idx value
  | .rd idx => encodeRd idx
  | .cmdNop => encodeWr 5#4 0x00#32
  | .cmdCompute => encodeWr 5#4 0x01#32
  | .cmdValidate => encodeWr 5#4 0x02#32
  | .cmdReflect => encodeWr 5#4 0x03#32
  | .poll => encodeRd 6#4
  | .expect idx _ => encodeRd idx
  | .config w refin refout fx mode ws => encodeWr 0#4 (configWord w refin refout fx mode ws)

/-- A program's encoding (R91): the list of its HOSTTX words in order. -/
def encodeScript (p : List ScriptLine) : List (BitVec 37) := p.map ScriptLine.word

/-- The host's check after the line: what `POLL` repeats on, and what `EXPECT` compares (R90). -/
def ScriptLine.satisfied (l : ScriptLine) (value : Word) : Bool :=
  match l with
  | .poll => !value.getLsbD 0
  | .expect _ v => value == v
  | _ => true

end Sys2Proof.Machine
end

