-- ==== Sys2Proof/Machine/Signals.lean ====
section
/-! DEFINITION. Machine/Signals.lean: the signal-level interface of one CRCB (R82), as the specification's chosen realisation
of the abstract steps.  Its cycle behaviour is not normative (R82, R249); it is modelled so that it can be shown to refine
the abstract steps (D2).

In one clock cycle the host's transaction and the engine's step may fall together.  The engine moves only if it was busy
before the edge (log entry 10), and then a host write has no effect (R192) and a host read gets the value before the edge
(R82), so the two never touch each other. -/

namespace Sys2Proof.Machine

/-- The input signals of R82 in one cycle (`clk` is the edge itself). -/
structure PortIn where
  rst : Bool
  hReq : Bool
  hWe : Bool
  hIdx : BitVec 4
  hWdata : Word
  mAck : Bool
  mData : Byte
deriving DecidableEq, Repr

/-- The output signals of R82. -/
structure PortOut where
  hRdata : Word
  mReq : Bool
  mAddr : Word
deriving DecidableEq, Repr

/-- The transaction T the host signals carry (R81, R82). -/
def PortIn.transaction (p : PortIn) : HostWord := .hosttx (packTx (BitVec.ofBool p.hWe) p.hIdx p.hWdata)

/-- The outputs before the edge (R82): the register value, the image request of phase ABSORB and the cursor.  R82 gives
`h_rdata` only when `h_req = 1` and `h_we = 0`.  DESIGN CHOICE: in every other cycle it is driven too, with the register that
`h_idx` names (log entry 19; unsafe for a claim about `h_rdata` outside a read). -/
def portOutputs (p : PortIn) (s : State) : PortOut where
  hRdata := readReg (regOf p.hIdx) s
  mReq := decide (s.phase = .absorb)
  mAddr := s.cur

/-- The engine's part of a cycle: an ABSORB completes in the cycle `m_ack = 1`, the other steps take one cycle (R249). -/
def engineCycle (p : PortIn) (s : State) : State :=
  match s.phase with
  | .absorb => if p.mAck then absorbByte p.mData s else s
  | _ => engineStep s

/-- The host's part of a cycle: one transaction if `h_req` is high. -/
def hostCycle (p : PortIn) (s : State) : Host.Outcome State Fault Refusal :=
  if p.hReq then exec (decode p.transaction) s else .next s

/-- A rising clock edge (R82, R240, R249). -/
def clockEdge (p : PortIn) (s : State) : Host.Outcome State Fault Refusal :=
  if p.rst then .next (applyReset s)
  else
    match hostCycle p s with
    | .next t => .next (if s.busy then engineCycle p t else t)
    | .fault r => .fault r
    | .refused r => .refused r

/-- The collaborator's duty (R82): with `m_ack = 1` in a requesting cycle, `m_data` is the image's byte at `m_addr`. -/
def PortIn.honest (p : PortIn) (s : State) : Prop :=
  p.mAck = true → s.phase = .absorb → Memory.read s.image s.cur = some p.mData

end Sys2Proof.Machine
end

