-- ==== Sys2Proof/Safety.lean ====
section
/-! DEFINITION. Safety.lean: the terms claims use: the invariant of R46 with the reserved bits of R22 and the values of R35,
stuck states (R155), and schedules of turns. -/

namespace Sys2Proof.Machine

/-- The values STATUS can take (R35). -/
def statusValues : List Word := [0x00#32, 0x01#32, 0x02#32, 0x12#32, 0x22#32, 0x32#32]

/-- What every state after reset meets (R46, R35, R22, R41, R45). -/
structure Inv (s : State) : Prop where
  /-- `STATUS.BUSY = 1` iff `h.phase != IDLE` (R46). -/
  busy_iff : s.busy = true ↔ s.phase ≠ .idle
  /-- STATUS takes only the values of R35. -/
  status_value : s.status ∈ statusValues
  /-- While the engine runs REG_WIDTH is legal (R46). -/
  width_legal : s.phase ≠ .idle → legalWidth s.regWidth = true
  /-- While the engine runs `h.acc < 2^W` (R46). -/
  acc_below : s.phase ≠ .idle → s.acc.toNat < 2 ^ s.width
  /-- In ABSORB the cursor is inside the range and no shift is left (R46). -/
  absorb_cursor : s.phase = .absorb →
    s.startAddr.toNat ≤ s.cur.toNat ∧ s.cur.toNat < s.endAddr.toNat ∧ s.left = 0#4
  /-- In SHIFT the cursor is inside the range and 1 to 8 shifts are left (R46, R45). -/
  shift_cursor : s.phase = .shift →
    s.startAddr.toNat ≤ s.cur.toNat ∧ s.cur.toNat < s.endAddr.toNat ∧ 1 ≤ s.left.toNat ∧ s.left.toNat ≤ 8
  /-- In FINAL no shift is left (R46). -/
  final_left : s.phase = .final → s.left = 0#4
  /-- Reserved bits of CTRL are 0 (R22, R23). -/
  ctrl_reserved : s.ctrl &&& ~~~0x00FF0FFF#32 = 0#32
  /-- Reserved bits of REFL_WIDTH are 0 (R41). -/
  reflWidth_reserved : s.reflWidth &&& ~~~0x000000FF#32 = 0#32
  /-- The image is in canonical form. -/
  image_wf : Memory.wf s.image = true

/-- A stuck state (R155): an ABSORB at an address the image does not give. -/
def Stuck (s : State) : Prop := s.busy = true ∧ s.phase = .absorb ∧ Memory.read s.image s.cur = none

/-- No reset among the turns. -/
def noReset (ts : List Turn) : Bool := ts.all fun t => t != .reset

/-- The engine's turns among the turns. -/
def engineTurns (ts : List Turn) : Nat := ts.countP fun t => t == .engine

/-- The engine steps of a COMPUTE over n bytes: n ABSORB, 8n SHIFT, 1 FINAL (R160). -/
def computeSteps (n : Nat) : Nat := 9 * n + 1

/-- The host issues the command with opcode `opc` in state `s` as the next turn, and CRCB is idle, so it is accepted (R34). -/
def Accepts (s : State) (opc : BitVec 8) : Prop :=
  s.busy = false ∧ ∃ w, currentTurn s = .host w ∧ w.command = some opc

/-- The turns `ts`, taken from `s`, end in the idle state `t`, and every state before the last is busy: they run a COMPUTE
accepted just before `s` to its completion (R12, R155). -/
def CompletesUnder (s : State) (ts : List Turn) (t : State) : Prop :=
  Host.Core.run Sys2Proof.core ts.length { s with turns := ts } = .next t ∧ t.busy = false ∧
    ∀ k u, k < ts.length → Host.Core.run Sys2Proof.core k { s with turns := ts } = .next u → State.busy u = true

/-- The state takes the engine's turn now and has the turns `ts` after it: the engine is named, or no turn is (log entry 2). -/
def EngineMoves (s : State) (ts : List Turn) : Prop := s.turns = .engine :: ts ∨ (s.turns = [] ∧ ts = [])

/-- Two states that differ at most in `h.acc`, `h.cur` and `h.left` (R47). -/
def SameButHidden (s t : State) : Prop := { s with acc := t.acc, cur := t.cur, left := t.left } = t

end Sys2Proof.Machine
end

