-- ==== Sys2Proof/Certificates/Slice0/Obligations.lean ====
section
/-! DEFINITION. Certificates/Slice0/Obligations.lean: what is claimed of the CRCB model, from the numbered rules of spec/.
Where a statement has `s.status ∈ statusValues` as a premise, that is a field of the invariant `Inv`, which `StepKeepsInv`
states; it keeps reserved STATUS bits, which no run sets, out of the written result. -/

open Sys2Proof Sys2Proof.Machine

/-! ## Encoding -/

/-- A few words written out from R81 and R85 decode to the instructions they stand for, and a word with a bit above bit 36
is no host transaction (log entry 16). -/
def Obligations.SampleWordsDecode : Prop :=
  decode (.hosttx 0x1000010008#37) = .regWrite 0#4 0x00010008#32 ∧
  decode (.hosttx 0x0600000000#37) = .regRead 6#4 0#32 ∧
  decode (.hosttx 0x15000000FF#37) = .regWrite 5#4 0xFF#32 ∧
  decode (.cmd 0x00000000#32) = .nop 0#24 ∧
  decode (.cmd 0x00000101#32) = .compute 1#24 ∧
  decode (.cmd 0x00000002#32) = .validate 0#24 ∧
  decode (.cmd 0x00000003#32) = .reflect 0#24 ∧
  decode (.cmd 0x00000004#32) = .illegal04 0#2 0#24 ∧
  decode (.cmd 0x000001FF#32) = .illegal80 0x7F#7 1#24 ∧
  (∀ w : Nat, 2 ^ 37 ≤ w → decodeTableWord 40 w = none)

/-- Decoding an encoded instruction gives it back, with every operand at every value, and encoding a decoded word gives
the word back. -/
def Obligations.DecodeEncodeAgree : Prop :=
  (∀ i : Instr, decode (encode i) = i) ∧ (∀ w : HostWord, encode (decode w) = w)

/-- R85: the opcode map, over all 2^32 command words. -/
def Obligations.OpcodeMap : Prop :=
  ∀ c : BitVec 32, (decode (.cmd c)).mnemonic =
    (if c.toNat % 256 = 0 then "NOP"
     else if c.toNat % 256 = 1 then "COMPUTE"
     else if c.toNat % 256 = 2 then "VALIDATE"
     else if c.toNat % 256 = 3 then "REFLECT"
     else "ILLEGAL")

/-- spec/opcode_table.json: every host word has exactly one row of the table, and the decoder gives that row's instruction. -/
def Obligations.EveryWordHasOneTableRow : Prop :=
  ∀ w : HostWord,
    (∃ r, opcodeTable[(decode w).row]? = some r ∧ r.holds w = true ∧ r.mnemonic = (decode w).mnemonic) ∧
    (∀ k r, opcodeTable[k]? = some r → r.holds w = true → k = (decode w).row)

/-- R81: the fields of a host transaction; every 37-bit word is one; a read's DATA must be 0 and is ignored. -/
def Obligations.HostTransactionFields : Prop :=
  (∀ idx data, decode (.hosttx (1#1 ++ (idx ++ data))) = .regWrite idx data) ∧
  (∀ idx data, decode (.hosttx (0#1 ++ (idx ++ data))) = .regRead idx data) ∧
  (∀ t : BitVec 37, ∃ (we : BitVec 1) (idx : BitVec 4) (data : Word), t = we ++ (idx ++ data)) ∧
  (∀ idx data, (Instr.regRead idx data).wellFormed = true ↔ data = 0#32) ∧
  (∀ idx data data' s, exec (.regRead idx data) s = exec (.regRead idx data') s) ∧
  decode (.hosttx 0x1000010008#37) = .regWrite 0#4 0x00010008#32 ∧
  decode (.hosttx 0x0600000000#37) = .regRead 6#4 0#32

/-- R84: a command word is the DATA of a write to CMD, and only its bits 7:0 matter: words with equal bits 7:0 do the same,
at either level, in every state; 0x00000101 is COMPUTE. -/
def Obligations.CommandHighBitsIgnored : Prop :=
  (∀ (c c' : Word) (s : State), c.toNat % 256 = c'.toNat % 256 →
    exec (decode (.cmd c)) s = exec (decode (.cmd c')) s ∧
    exec (.regWrite 5#4 c) s = exec (decode (.cmd c')) s) ∧
  (decode (.cmd 0x00000101#32)).mnemonic = "COMPUTE"

/-- R89, R90: a script line's word is the transaction it names, and CONFIG's value has the fields it is built from. -/
def Obligations.ScriptLinesDecode : Prop :=
  (∀ idx v, decode (.hosttx (ScriptLine.wr idx v).word) = .regWrite idx v) ∧
  (∀ idx, decode (.hosttx (ScriptLine.rd idx).word) = .regRead idx 0#32) ∧
  decode (.hosttx ScriptLine.cmdNop.word) = .regWrite 5#4 0#32 ∧
  decode (.hosttx ScriptLine.cmdCompute.word) = .regWrite 5#4 1#32 ∧
  decode (.hosttx ScriptLine.cmdValidate.word) = .regWrite 5#4 2#32 ∧
  decode (.hosttx ScriptLine.cmdReflect.word) = .regWrite 5#4 3#32 ∧
  decode (.hosttx ScriptLine.poll.word) = .regRead 6#4 0#32 ∧
  (∀ idx v, decode (.hosttx (ScriptLine.expect idx v).word) = .regRead idx 0#32) ∧
  (∀ w refin refout fx mode ws (s : State), s.busy = false →
    ∃ t, exec (decode (.hosttx (ScriptLine.config w refin refout fx mode ws).word)) s = .next t ∧
      t = { s with ctrl := t.ctrl } ∧
      t.regWidth = w ∧ t.refin = refin ∧ t.refout = refout ∧ t.finalXor = fx ∧ t.applyMode = mode ∧ t.valWsize = ws)

/-! ## Steps, reset and the host's access -/

/-- A step whose turn is the host's is `exec` of the decoded instruction, with the turn taken off the list and nothing else
added; a word placed by `withFetchWord` is the one the next step runs. -/
def Obligations.StepRunsDecodedInstruction : Prop :=
  (∀ (s : State) (w : HostWord) (i : Instr) (ts : List Turn),
    s.turns = .host w :: ts → decode w = i → step s = exec i { s with turns := ts }) ∧
  (∀ (s : State) (nbits w : Nat) (i : Instr),
    decodeTableWord nbits w = some i → step (s.withFetchWord nbits w) = exec i s)

/-- R49: the value of every piece of state after reset. -/
def Obligations.ResetValues : Prop :=
  State.reset.ctrl = 0x00010020#32 ∧ State.reset.regWidth = 32#8 ∧ State.reset.refin = false ∧
  State.reset.refout = false ∧ State.reset.finalXor = false ∧ State.reset.applyMode = false ∧
  State.reset.valWsize = 1#8 ∧
  State.reset.poly = 0x04C11DB7#32 ∧ State.reset.seed = 0x00000000#32 ∧ State.reset.startAddr = 0x00000000#32 ∧
  State.reset.endAddr = 0x00000000#32 ∧
  State.reset.status = 0x00000000#32 ∧ State.reset.busy = false ∧ State.reset.done = false ∧ State.reset.err = 0#4 ∧
  State.reset.result = 0x00000000#32 ∧ State.reset.reflIn = 0x00000000#32 ∧ State.reset.reflWidth = 0x00000000#32 ∧
  State.reset.reflOut = 0x00000000#32 ∧
  State.reset.phase = .idle ∧ State.reset.acc = 0#32 ∧ State.reset.cur = 0#32 ∧ State.reset.left = 0#4

/-- R240, R242: a step with `rst` asserted, in any state, BUSY and stuck ones too, gives every register and hidden field its
reset value and does nothing else.  That the image, the turns to come and the host's value stay is the model's own (log
entries 1, 3 and 4). -/
def Obligations.ResetStepRestoresReset : Prop :=
  ∀ (s : State) (ts : List Turn), s.turns = .reset :: ts →
    step s = .next { State.reset with image := s.image, turns := ts, rdata := s.rdata }

/-- R190: what a host read returns, in every state, BUSY too; nothing but the host's value changes.  The value is kept in
the model's own field `rdata` (log entry 3). -/
def Obligations.RegReadReturns : Prop :=
  ∀ (idx : BitVec 4) (data : Word) (s : State),
    exec (.regRead idx data) s = .next { s with rdata :=
      (if idx = 0#4 then s.ctrl &&& 0x00FF0FFF#32
       else if idx = 1#4 then s.poly
       else if idx = 2#4 then s.seed
       else if idx = 3#4 then s.startAddr
       else if idx = 4#4 then s.endAddr
       else if idx = 6#4 then s.status &&& 0x000000F3#32
       else if idx = 7#4 then s.result
       else if idx = 8#4 then s.reflIn
       else if idx = 9#4 then s.reflWidth &&& 0x000000FF#32
       else if idx = 10#4 then s.reflOut
       else 0#32) }

/-- R191: what a host write to any index but CMD does while idle: the target register only, and nothing for read-only and
unmapped indices. -/
def Obligations.RegWriteStores : Prop :=
  ∀ (idx : BitVec 4) (data : Word) (s : State), s.busy = false → idx ≠ 5#4 →
    exec (.regWrite idx data) s = .next
      (if idx = 0#4 then { s with ctrl := data &&& 0x00FF0FFF#32 }
       else if idx = 1#4 then { s with poly := data }
       else if idx = 2#4 then { s with seed := data }
       else if idx = 3#4 then { s with startAddr := data }
       else if idx = 4#4 then { s with endAddr := data }
       else if idx = 8#4 then { s with reflIn := data }
       else if idx = 9#4 then { s with reflWidth := data &&& 0x000000FF#32 }
       else s)

/-- R196: a host write to CMD does what the command in its bits 7:0 does, in every state. -/
def Obligations.CmdWriteRunsCommand : Prop :=
  ∀ (c : Word) (s : State), exec (.regWrite 5#4 c) s = exec (decode (.cmd c)) s

/-- R192: every host write while BUSY has no effect, to any index, CMD included; so the configuration, the range and RESULT
stay for the whole computation, and nothing but the FINAL step or reset ends it. -/
def Obligations.WritesWhileBusyHaveNoEffect : Prop :=
  (∀ s : State, s.busy = true →
    (∀ idx data, exec (.regWrite idx data) s = .next s) ∧
    (∀ ign, exec (.nop ign) s = .next s) ∧
    (∀ ign, exec (.compute ign) s = .next s) ∧
    (∀ ign, exec (.validate ign) s = .next s) ∧
    (∀ ign, exec (.reflect ign) s = .next s) ∧
    (∀ low ign, exec (.illegal04 low ign) s = .next s) ∧
    (∀ low ign, exec (.illegal08 low ign) s = .next s) ∧
    (∀ low ign, exec (.illegal10 low ign) s = .next s) ∧
    (∀ low ign, exec (.illegal20 low ign) s = .next s) ∧
    (∀ low ign, exec (.illegal40 low ign) s = .next s) ∧
    (∀ low ign, exec (.illegal80 low ign) s = .next s)) ∧
  (∀ s t : State, s.busy = true → step s = .next t → currentTurn s ≠ .reset →
    t.ctrl = s.ctrl ∧ t.poly = s.poly ∧ t.seed = s.seed ∧ t.startAddr = s.startAddr ∧ t.endAddr = s.endAddr ∧
    (t.busy = true → t.result = s.result) ∧
    (t.busy = false → currentTurn s = .engine ∧ s.phase = .final))

/-- R43: indices 11 to 15, busy or idle. -/
def Obligations.UnmappedIndicesInert : Prop :=
  ∀ (idx : BitVec 4) (data : Word) (s : State), 11 ≤ idx.toNat →
    exec (.regRead idx data) s = .next { s with rdata := 0#32 } ∧ exec (.regWrite idx data) s = .next s

/-- R248, R70: a register write is visible to the very next transaction. -/
def Obligations.WriteVisibleToNextRead : Prop :=
  ∀ (idx : BitVec 4) (data : Word) (s : State) (ts : List Turn), s.busy = false →
    (idx = 0#4 ∨ idx = 1#4 ∨ idx = 2#4 ∨ idx = 3#4 ∨ idx = 4#4 ∨ idx = 8#4 ∨ idx = 9#4) →
    ∃ t : State,
      Host.Core.run Sys2Proof.core 2
        { s with turns := .host (encode (.regWrite idx data)) :: .host (encode (.regRead idx 0#32)) :: ts } = .next t ∧
      t.turns = ts ∧
      t.rdata = data &&& (if idx = 0#4 then 0x00FF0FFF#32 else if idx = 9#4 then 0x000000FF#32 else 0xFFFFFFFF#32)

/-- R193: NOP has no effect at all, in every state, in both spellings. -/
def Obligations.NopChangesNothing : Prop :=
  (∀ ign s, exec (.nop ign) s = .next s) ∧
  (∀ (c : Word) (s : State), c.toNat % 256 = 0 → exec (.regWrite 5#4 c) s = .next s)

/-- R213, R194: an illegal command, while idle: ERR = 3, DONE = 1, BUSY = 0 and nothing else changes, in all six rows and
for every opcode 0x04..0xFF written to CMD. -/
def Obligations.IllegalCommandReportsThree : Prop :=
  ∀ s : State, s.busy = false → s.status ∈ statusValues →
    (∀ low ign, exec (.illegal04 low ign) s = .next { s with status := 0x32#32 }) ∧
    (∀ low ign, exec (.illegal08 low ign) s = .next { s with status := 0x32#32 }) ∧
    (∀ low ign, exec (.illegal10 low ign) s = .next { s with status := 0x32#32 }) ∧
    (∀ low ign, exec (.illegal20 low ign) s = .next { s with status := 0x32#32 }) ∧
    (∀ low ign, exec (.illegal40 low ign) s = .next { s with status := 0x32#32 }) ∧
    (∀ low ign, exec (.illegal80 low ign) s = .next { s with status := 0x32#32 }) ∧
    (∀ c : Word, 4 ≤ c.toNat % 256 → exec (.regWrite 5#4 c) s = .next { s with status := 0x32#32 })

/-! ## Range Validator -/

/-- R101, R102, R103, R105: the validator's answer on every input: the width first, then a word size of 0, then the length
as an integer of either sign. -/
def Obligations.ValidatorDecides : Prop :=
  ∀ (startAddr endAddr : Word) (ws w : BitVec 8),
    (¬ (w = 8#8 ∨ w = 16#8 ∨ w = 32#8) → validate startAddr endAddr ws w = .err .invalidRegisterWidth) ∧
    ((w = 8#8 ∨ w = 16#8 ∨ w = 32#8) → ws = 0#8 → validate startAddr endAddr ws w = .err .misalignedRange) ∧
    ((w = 8#8 ∨ w = 16#8 ∨ w = 32#8) → ws ≠ 0#8 →
      (validate startAddr endAddr ws w = .ok ↔ (ws.toNat : Int) ∣ (endAddr.toNat : Int) - (startAddr.toNat : Int)) ∧
      (validate startAddr endAddr ws w = .err .misalignedRange ↔
        ¬ (ws.toNat : Int) ∣ (endAddr.toNat : Int) - (startAddr.toNat : Int)) ∧
      (validate startAddr endAddr ws w = .err .misalignedRange ↔ endAddr.toNat % ws.toNat ≠ startAddr.toNat % ws.toNat) ∧
      (Int.tmod ((endAddr.toNat : Int) - (startAddr.toNat : Int)) ws.toNat = 0 ↔
        Int.fmod ((endAddr.toNat : Int) - (startAddr.toNat : Int)) ws.toNat = 0))

/-- R107: VALIDATE while idle writes STATUS only, with the word size of CTRL[23:16] and the width of CTRL[7:0]. -/
def Obligations.ValidateReportsVerdict : Prop :=
  ∀ (ign : BitVec 24) (s : State), s.busy = false → s.status ∈ statusValues →
    exec (.validate ign) s = .next { s with status :=
      (if ¬ (s.ctrl.toNat % 256 = 8 ∨ s.ctrl.toNat % 256 = 16 ∨ s.ctrl.toNat % 256 = 32) then 0x12#32
       else if s.ctrl.toNat / 65536 % 256 = 0 ∨
         ¬ ((s.ctrl.toNat / 65536 % 256 : Nat) : Int) ∣ (s.endAddr.toNat : Int) - (s.startAddr.toNat : Int) then 0x22#32
       else 0x02#32) }

/-- R108: with word size 1 the validator never answers MISALIGNED_RANGE, so COMPUTE's only validation error is
INVALID_REGISTER_WIDTH; no command but VALIDATE reports MISALIGNED_RANGE, and the document's range [0,3) with word size 2
gives it. -/
def Obligations.ComputeNeverMisaligned : Prop :=
  (∀ startAddr endAddr w, validate startAddr endAddr 1#8 w ≠ .err .misalignedRange) ∧
  (∀ ign (s t : State), s.busy = false → exec (.compute ign) s = .next t → t.err = 0#4 ∨ t.err = 1#4) ∧
  (∀ (s t : State) (opc : BitVec 8), Accepts s opc → opc ≠ 0#8 → step s = .next t → t.err = 2#4 → opc = 2#8) ∧
  validate 0#32 3#32 2#8 8#8 = .err .misalignedRange

/-! ## Bit Reflector -/

/-- R120, R122: the document's reflector bit by bit, and the hardware reflector as its low 32 bits; exact for widths up to
32. -/
def Obligations.ReflectorIsTheDocuments : Prop :=
  (∀ v w j : Nat, (reflectDoc v w).testBit j = (decide (j < w) && v.testBit (w - 1 - j))) ∧
  (∀ (v : Word) (w : Nat), w ≤ 32 → (reflect v w).toNat = reflectDoc v.toNat w) ∧
  (∀ (v : Word) (w : Nat), w ≤ 255 → (reflect v w).toNat = reflectDoc v.toNat w % 2 ^ 32) ∧
  (∀ (v : Word) (w j : Nat), w ≤ 255 → j < 32 →
    (reflect v w).getLsbD j = (decide (j < w) && decide (w - 1 - j < 32) && v.getLsbD (w - 1 - j)))

/-- R121: value bits at positions >= w do not matter, and a width of 0 gives 0. -/
def Obligations.ReflectorIgnoresHighBits : Prop :=
  (∀ v w : Nat, reflectDoc v w = reflectDoc (v % 2 ^ w) w) ∧ (∀ v : Nat, reflectDoc v 0 = 0)

/-- R124: involution, complement, range and palindromes of the reflector. -/
def Obligations.ReflectorLaws : Prop :=
  (∀ (v : Word) (w : Nat), w ≤ 32 →
    (reflect (reflect v w) w).toNat = v.toNat % 2 ^ w ∧
    (v.toNat < 2 ^ w → reflect (v ^^^ mask w) w = reflect v w ^^^ mask w) ∧
    (reflect v w).toNat < 2 ^ w ∧
    reflect 0#32 w = 0#32) ∧
  reflect 0xA5#32 8 = 0xA5#32 ∧ reflect 0xFF#32 8 = 0xFF#32

/-- R125: REFLECT while idle writes REFL_OUT, the document's reflection cut to 32 bits, and STATUS; nothing else. -/
def Obligations.ReflectWritesReflOut : Prop :=
  ∀ (ign : BitVec 24) (s : State), s.busy = false → s.status ∈ statusValues →
    exec (.reflect ign) s = .next { s with
      reflOut := BitVec.ofNat 32 (reflectDoc s.reflIn.toNat (s.reflWidth.toNat % 256))
      status := 0x02#32 }

/-! ## CRC Engine: acceptance and steps -/

/-- R150, R211: a COMPUTE with an illegal width leaves RESULT = 0 and STATUS = 0x12, and nothing else changes. -/
def Obligations.ComputeRejectsIllegalWidth : Prop :=
  ∀ (ign : BitVec 24) (s : State), s.busy = false → s.status ∈ statusValues →
    ¬ (s.ctrl.toNat % 256 = 8 ∨ s.ctrl.toNat % 256 = 16 ∨ s.ctrl.toNat % 256 = 32) →
    exec (.compute ign) s = .next { s with result := 0#32, status := 0x12#32 }

/-- R150: a COMPUTE with a legal width starts the engine: the hidden state from SEED and START, STATUS = 0x01, and nothing
else changes. -/
def Obligations.ComputeStartsEngine : Prop :=
  ∀ (ign : BitVec 24) (s : State) (W : Nat), s.busy = false → s.status ∈ statusValues →
    s.ctrl.toNat % 256 = W → (W = 8 ∨ W = 16 ∨ W = 32) →
    exec (.compute ign) s = .next { s with
      acc := BitVec.ofNat 32 (s.seed.toNat % 2 ^ W)
      cur := s.startAddr
      left := 0#4
      phase := if s.startAddr.toNat < s.endAddr.toNat then .absorb else .final
      status := 0x01#32 }

/-- R151: the ABSORB step, where the image gives the byte. -/
def Obligations.AbsorbStepPlacesByte : Prop :=
  ∀ (s : State) (ts : List Turn) (W : Nat) (b : Byte), EngineMoves s ts → s.phase = .absorb →
    s.ctrl.toNat % 256 = W → (W = 8 ∨ W = 16 ∨ W = 32) → Memory.read s.image s.cur = some b →
    step s = .next { s with
      turns := ts
      acc := s.acc ^^^ BitVec.ofNat 32 ((if s.ctrl.getLsbD 8 then reflectDoc b.toNat 8 else b.toNat) * 2 ^ (W - 8))
      left := 8#4
      phase := .shift }

/-- R152: the SHIFT step: one bit of polynomial division, and after a byte's eighth shift the move to the next byte. -/
def Obligations.ShiftStepDivides : Prop :=
  ∀ (s : State) (ts : List Turn) (W : Nat), EngineMoves s ts → s.phase = .shift →
    s.ctrl.toNat % 256 = W → (W = 8 ∨ W = 16 ∨ W = 32) →
    ∃ acc' : Word,
      acc'.toNat = (2 * s.acc.toNat % 2 ^ W) ^^^ (if s.acc.getLsbD (W - 1) then s.poly.toNat % 2 ^ W else 0) ∧
      (s.left = 1#4 → step s = .next { s with
        turns := ts, acc := acc', left := 0#4, cur := s.cur + 1#32
        phase := if (s.cur + 1#32).toNat < s.endAddr.toNat then .absorb else .final }) ∧
      (s.left ≠ 1#4 → step s = .next { s with turns := ts, acc := acc', left := s.left - 1#4 })

/-- R153: the FINAL step: the masked accumulator, reflected in apply mode with REFOUT, complemented with FINAL_XOR, is
RESULT, and STATUS is 0x02. -/
def Obligations.FinalStepCompletes : Prop :=
  ∀ (s : State) (ts : List Turn) (W : Nat), EngineMoves s ts → s.phase = .final → s.status ∈ statusValues →
    s.ctrl.toNat % 256 = W → (W = 8 ∨ W = 16 ∨ W = 32) →
    step s = .next { s with
      turns := ts
      result := BitVec.ofNat 32
        ((if s.ctrl.getLsbD 9 = true ∧ s.ctrl.getLsbD 11 = true then reflectDoc (s.acc.toNat % 2 ^ W) W
          else s.acc.toNat % 2 ^ W) ^^^ (if s.ctrl.getLsbD 10 then 2 ^ W - 1 else 0))
      status := 0x02#32
      phase := .idle }

/-- R154, R227: in phase IDLE the engine has no step: its turn changes nothing. -/
def Obligations.IdleEngineHasNoStep : Prop :=
  ∀ (s : State) (ts : List Turn), EngineMoves s ts → s.phase = .idle → step s = .next { s with turns := ts }

/-- R62, R155, R242: an ABSORB at an address the image does not give has no step: in a stuck state every step but a reset
leaves BUSY, the hidden state and every register as they are, and the state stuck; a reset ends it. -/
def Obligations.StuckUntilReset : Prop :=
  ∀ s : State, Stuck s →
    (currentTurn s ≠ .reset → ∃ v : Word, step s = .next { s with turns := s.turns.tail, rdata := v } ∧
      Stuck { s with turns := s.turns.tail, rdata := v }) ∧
    (currentTurn s = .reset → ∃ t, step s = .next t ∧ t.busy = false ∧ t.phase = .idle ∧ t.result = 0#32)

/-- R48: the cursor moves only at a reset, at a COMPUTE's acceptance (to START) and after a byte's eighth shift (by 1), and
then never past END, so it never wraps. -/
def Obligations.CursorNeverWraps : Prop :=
  ∀ s t : State, Inv s → step s = .next t →
    t.cur = s.cur ∨ (currentTurn s = .reset ∧ t.cur = 0#32) ∨ (Accepts s 1#8 ∧ t.cur = s.startAddr) ∨
    (currentTurn s = .engine ∧ s.phase = .shift ∧ s.left = 1#4 ∧
      t.cur.toNat = s.cur.toNat + 1 ∧ t.cur.toNat ≤ s.endAddr.toNat)

/-! ## CRC Engine: whole computations -/

/-- R147: the W-bit datapath gives the document's algorithm's value for every byte list and configuration. -/
def Obligations.DatapathMatchesReference : Prop :=
  ∀ (bytes : List Byte) (c : CrcConfig), c.width = 8 ∨ c.width = 16 ∨ c.width = 32 →
    crcRef bytes c = .ok (crcHW bytes c).toNat

/-- R140, R150 to R156, R160, R14: from the acceptance of a COMPUTE with a legal width over a readable range of n bytes, any
turns of host and engine without reset that hold 9n + 1 engine turns, the last turn being one, end with RESULT the value of
the document's algorithm, STATUS = 0x02, and the configuration as it was. -/
def Obligations.ComputeRunGivesReference : Prop :=
  ∀ (ign : BitVec 24) (s s0 : State) (bytes : List Byte) (ts : List Turn),
    s.busy = false → s.status ∈ statusValues → legalWidth s.regWidth = true → s.rangeBytes = some bytes →
    exec (.compute ign) s = .next s0 →
    noReset ts = true → engineTurns ts = computeSteps bytes.length → ts.getLast? = some .engine →
    ∃ (t : State) (r : Nat),
      Host.Core.run Sys2Proof.core ts.length { s0 with turns := ts } = .next t ∧
      crcRef bytes s.crcConfig = .ok r ∧ t.result.toNat = r ∧
      t.status = 0x02#32 ∧ t.phase = .idle ∧ t.turns = [] ∧
      t.ctrl = s.ctrl ∧ t.poly = s.poly ∧ t.seed = s.seed ∧ t.startAddr = s.startAddr ∧ t.endAddr = s.endAddr ∧
      t.reflIn = s.reflIn ∧ t.reflWidth = s.reflWidth ∧ t.reflOut = s.reflOut ∧ t.image = s.image

/-- R160, R39, R219: with fewer engine turns than 9n + 1 the COMPUTE is still running and RESULT holds the previous value. -/
def Obligations.ComputeStillRunningBefore : Prop :=
  ∀ (ign : BitVec 24) (s s0 : State) (bytes : List Byte) (ts : List Turn),
    s.busy = false → s.status ∈ statusValues → legalWidth s.regWidth = true → s.rangeBytes = some bytes →
    exec (.compute ign) s = .next s0 →
    noReset ts = true → engineTurns ts < computeSteps bytes.length →
    ∃ t : State,
      Host.Core.run Sys2Proof.core ts.length { s0 with turns := ts } = .next t ∧
      t.status = 0x01#32 ∧ t.phase ≠ .idle ∧ t.result = s.result

/-- R162, R14: two COMPUTEs accepted with equal registers and the same image, run to completion under any two interleavings
without reset, end with equal RESULT and STATUS; this covers a failing one, which completes at once. -/
def Obligations.EqualInputsEqualResults : Prop :=
  ∀ (ign ign' : BitVec 24) (s s' s0 s0' t t' : State) (ts ts' : List Turn),
    Inv s → Inv s' → s.busy = false → s'.busy = false →
    s.ctrl = s'.ctrl → s.poly = s'.poly → s.seed = s'.seed → s.startAddr = s'.startAddr → s.endAddr = s'.endAddr →
    s.image = s'.image →
    exec (.compute ign) s = .next s0 → exec (.compute ign') s' = .next s0' →
    noReset ts = true → noReset ts' = true → CompletesUnder s0 ts t → CompletesUnder s0' ts' t' →
    t.result = t'.result ∧ t.status = t'.status

/-- R157: every COMPUTE's RESULT is below 2^W: of the FINAL step, of the datapath over any byte list, and of a failing
COMPUTE, where it is 0. -/
def Obligations.ResultBelowWidth : Prop :=
  (∀ (s t : State) (ts : List Turn), EngineMoves s ts → s.phase = .final → legalWidth s.regWidth = true →
    step s = .next t → t.result.toNat < 2 ^ s.width) ∧
  (∀ (bytes : List Byte) (c : CrcConfig), c.width = 8 ∨ c.width = 16 ∨ c.width = 32 →
    (crcHW bytes c).toNat < 2 ^ c.width) ∧
  (∀ (ign : BitVec 24) (s t : State), s.busy = false → legalWidth s.regWidth = false →
    exec (.compute ign) s = .next t → t.result = 0#32)

/-- R158: the final XOR complements the result, all other fields equal, in both output-reflection modes. -/
def Obligations.FinalXorComplements : Prop :=
  ∀ (bytes : List Byte) (c : CrcConfig), c.width = 8 ∨ c.width = 16 ∨ c.width = 32 →
    ∃ r : Nat, crcRef bytes { c with finalXor := false } = .ok r ∧
      crcRef bytes { c with finalXor := true } = .ok (r ^^^ (2 ^ c.width - 1)) ∧
      (crcHW bytes { c with finalXor := true }).toNat = (crcHW bytes { c with finalXor := false }).toNat ^^^ (2 ^ c.width - 1)

/-- R159: only the low W bits of POLY and SEED reach the result, in the datapath and in the document's algorithm. -/
def Obligations.OnlyLowBitsMatter : Prop :=
  ∀ (bytes : List Byte) (c : CrcConfig) (polynomial seed : Word), c.width = 8 ∨ c.width = 16 ∨ c.width = 32 →
    polynomial.toNat % 2 ^ c.width = c.polynomial.toNat % 2 ^ c.width →
    seed.toNat % 2 ^ c.width = c.seed.toNat % 2 ^ c.width →
    crcHW bytes { c with polynomial := polynomial, seed := seed } = crcHW bytes c ∧
    crcRef bytes { c with polynomial := polynomial, seed := seed } = crcRef bytes c

/-- R161: in literal mode REFOUT has no effect on the result, and REFOUT_MODE has none when REFOUT = 0. -/
def Obligations.LiteralModeIgnoresRefout : Prop :=
  ∀ (bytes : List Byte) (c : CrcConfig) (b : Bool),
    (c.applyMode = false → crcHW bytes { c with refout := b } = crcHW bytes c ∧
      crcRef bytes { c with refout := b } = crcRef bytes c) ∧
    (c.refout = false → crcHW bytes { c with applyMode := b } = crcHW bytes c ∧
      crcRef bytes { c with applyMode := b } = crcRef bytes c)

/-! ## Whole-machine rules -/

/-- The reset state meets the invariant. -/
def Obligations.ResetMeetsInv : Prop := Inv State.reset

/-- R46: every step keeps the invariants of the hidden state; with them the values of STATUS (R35), the reserved bits (R22,
R41) and the image's canonical form. -/
def Obligations.StepKeepsInv : Prop := ∀ s t : State, Inv s → step s = .next t → Inv t

/-- No step faults and none is refused: CRCB has no trap (R210) and no encoding traps (R87).  That the turn of a stuck engine,
or of one in IDLE, is a next state is the model's choice (log entries 7 and 2); R62 and R154 give it no step. -/
def Obligations.EveryStepAnswersNext : Prop := ∀ s : State, ∃ t, step s = .next t

/-- R61, R69: no step changes the memory image. -/
def Obligations.ImageNeverWritten : Prop :=
  ∀ (s t : State), step s = .next t → t.image = s.image ∧ ∀ a, Memory.read t.image a = Memory.read s.image a

/-- R60, R66, R67, R155: of the image only the bytes of [START, END) matter to a step: with another image that gives the
same bytes there, the step is the same. -/
def Obligations.OnlyRangeBytesMatter : Prop :=
  ∀ (s t : State) (m : Memory), Inv s → step s = .next t →
    (∀ a : Word, s.startAddr.toNat ≤ a.toNat → a.toNat < s.endAddr.toNat → Memory.read m a = Memory.read s.image a) →
    step (s.withImage m) = .next (t.withImage m)

/-- R39: RESULT is written by a reset, by the FINAL step, and by an accepted COMPUTE that fails validation, which writes 0;
by nothing else. -/
def Obligations.ResultWriters : Prop :=
  ∀ s t : State, step s = .next t → t.result ≠ s.result →
    currentTurn s = .reset ∨ (currentTurn s = .engine ∧ s.phase = .final) ∨
    (Accepts s 1#8 ∧ legalWidth s.regWidth = false ∧ t.result = 0#32)

/-- R42: REFL_OUT is written by a reset and by an accepted REFLECT, by nothing else. -/
def Obligations.ReflOutWriters : Prop :=
  ∀ s t : State, step s = .next t → t.reflOut ≠ s.reflOut → currentTurn s = .reset ∨ Accepts s 3#8

/-- R36: BUSY is set by an accepted COMPUTE that passes validation, cleared by the FINAL step and by reset, and written by
no other event; it is 1 exactly when the phase is not IDLE. -/
def Obligations.BusyChanges : Prop :=
  ∀ s t : State, Inv s → step s = .next t →
    (Accepts s 1#8 → legalWidth s.regWidth = true → t.busy = true) ∧
    (currentTurn s = .engine → s.phase = .final → t.busy = false) ∧
    (currentTurn s = .reset → t.busy = false) ∧
    (s.busy = false → t.busy = true → Accepts s 1#8 ∧ legalWidth s.regWidth = true) ∧
    (s.busy = true → t.busy = false → currentTurn s = .reset ∨ (currentTurn s = .engine ∧ s.phase = .final)) ∧
    (t.busy = true ↔ t.phase ≠ .idle)

/-- R37: DONE is cleared by the acceptance of a passing COMPUTE, set at the completion of every other command but NOP and at
the FINAL step, cleared by reset, and written by nothing else; BUSY and DONE are never both 1. -/
def Obligations.DoneChanges : Prop :=
  ∀ s t : State, Inv s → step s = .next t →
    (Accepts s 1#8 → legalWidth s.regWidth = true → t.done = false) ∧
    (∀ opc, Accepts s opc → opc ≠ 0#8 → ¬ (opc = 1#8 ∧ legalWidth s.regWidth = true) → t.done = true) ∧
    (currentTurn s = .engine → s.phase = .final → t.done = true) ∧
    (currentTurn s = .reset → t.done = false) ∧
    (t.done ≠ s.done → currentTurn s = .reset ∨ (currentTurn s = .engine ∧ s.phase = .final) ∨
      ∃ opc, Accepts s opc ∧ opc ≠ 0#8) ∧
    ¬ (t.busy = true ∧ t.done = true)

/-- R191, R150, R216: each configuration register is written by a reset and by an idle host write to its own index, by
nothing else: no command and no engine step writes one. -/
def Obligations.ConfigurationWriters : Prop :=
  ∀ s t : State, step s = .next t → currentTurn s ≠ .reset →
    (t.ctrl ≠ s.ctrl → s.busy = false ∧ ∃ w d, currentTurn s = .host w ∧ decode w = .regWrite 0#4 d) ∧
    (t.poly ≠ s.poly → s.busy = false ∧ ∃ w d, currentTurn s = .host w ∧ decode w = .regWrite 1#4 d) ∧
    (t.seed ≠ s.seed → s.busy = false ∧ ∃ w d, currentTurn s = .host w ∧ decode w = .regWrite 2#4 d) ∧
    (t.startAddr ≠ s.startAddr → s.busy = false ∧ ∃ w d, currentTurn s = .host w ∧ decode w = .regWrite 3#4 d) ∧
    (t.endAddr ≠ s.endAddr → s.busy = false ∧ ∃ w d, currentTurn s = .host w ∧ decode w = .regWrite 4#4 d) ∧
    (t.reflIn ≠ s.reflIn → s.busy = false ∧ ∃ w d, currentTurn s = .host w ∧ decode w = .regWrite 8#4 d) ∧
    (t.reflWidth ≠ s.reflWidth → s.busy = false ∧ ∃ w d, currentTurn s = .host w ∧ decode w = .regWrite 9#4 d)

/-- R216, R104, R219: a command accepted while idle that ends with an error leaves BUSY = 0, the hidden state, the
configuration and REFL_OUT unchanged, writes RESULT only if it is COMPUTE, and then 0, and does the same whatever the image:
no byte is read. -/
def Obligations.ErrorsHaveNoOtherEffect : Prop :=
  ∀ (s t : State) (opc : BitVec 8), Inv s → Accepts s opc → opc ≠ 0#8 → step s = .next t → t.err ≠ 0#4 →
    t = { s with turns := s.turns.tail, status := t.status, result := t.result } ∧
    t.busy = false ∧ t.done = true ∧
    (opc = 1#8 → t.result = 0#32) ∧ (opc ≠ 1#8 → t.result = s.result) ∧
    (∀ m : Memory, step (s.withImage m) = .next (t.withImage m))

/-- R47: the hidden state is not observable while idle: two idle states that differ only in `h.acc`, `h.cur` and `h.left`
stay so through any number of steps; no register and no value the host reads ever differs.  That both runs always go on is
the model's choice: an IDLE or stuck engine's turn is a step without effect (log entries 2 and 7). -/
def Obligations.IdleHiddenStateUnobservable : Prop :=
  ∀ (s t : State) (n : Nat), Inv s → Inv t → s.phase = .idle → SameButHidden s t →
    ∃ s' t' : State, Host.Core.run Sys2Proof.core n s = .next s' ∧ Host.Core.run Sys2Proof.core n t = .next t' ∧
      SameButHidden s' t'

/-! ## The signal-level realisation and the platform -/

/-- R82, R240, R249, D2: a clock edge with an honest image collaborator is exactly these abstract steps, in this order: a
reset when `rst` is high, and nothing else then; otherwise the transaction on the host's signals exactly when `h_req` is high,
and then an engine step exactly when the block was BUSY before the edge and was not waiting for an `m_ack`.  The
transaction is the write or read of `h_idx` and `h_wdata`, and `h_rdata` is the value a read gives the host.  The order of the
two inside a cycle is the model's choice (log entry 10). -/
def Obligations.ClockEdgeRefinesSteps : Prop :=
  (∀ p : PortIn, decode p.transaction =
    if p.hWe = true then .regWrite p.hIdx p.hWdata else .regRead p.hIdx p.hWdata) ∧
  (∀ (p : PortIn) (s : State) (us : List Turn), Inv s → p.honest s →
    us = (if p.rst = true then [Turn.reset]
      else (if p.hReq = true then [Turn.host p.transaction] else []) ++
        (if s.busy = true ∧ (s.phase ≠ .absorb ∨ p.mAck = true) then [Turn.engine] else [])) →
    ∃ t : State, clockEdge p s = .next t ∧
      Host.Core.run Sys2Proof.core us.length { s with turns := us ++ s.turns } = .next t ∧
      (p.rst = false → p.hReq = true → p.hWe = false → t.rdata = (portOutputs p s).hRdata))

/-- R82: `m_addr` is held stable while `m_req = 1`: until the byte is acknowledged, or reset, the request stays with its
address. -/
def Obligations.ImageRequestHeld : Prop :=
  ∀ (p q : PortIn) (s t : State), Inv s → (portOutputs p s).mReq = true → p.rst = false → p.mAck = false →
    clockEdge p s = .next t →
    (portOutputs q t).mReq = true ∧ (portOutputs q t).mAddr = (portOutputs p s).mAddr

/-- R225, R75: a step of one block of a platform is a step of that block alone and changes no other block, and all blocks
keep reading the same image.  That every block has a next state is the model's choice where its engine is IDLE or stuck (log
entries 2 and 7). -/
def Obligations.BlocksDoNotInterfere : Prop :=
  ∀ (img : Memory) (p : Platform) (k : Nat), p.wf img →
    ∃ q, Platform.stepBlock k p = .next q ∧ q.wf img ∧ q.blocks.length = p.blocks.length ∧
      (∀ j, j ≠ k → q.blocks[j]? = p.blocks[j]?) ∧
      (∀ s, p.blocks[k]? = some s → ∃ t, step s = .next t ∧ q.blocks[k]? = some t)
end

