-- ==== Sys2Proof/Laws/Decode.lean ====
section
/-! SUPPORT. Laws/Decode.lean: the fields of packed words, packing the fields of a word, and the opcode map row by row. -/

namespace Sys2Proof

@[simp] theorem txWe_packTx (we : BitVec 1) (idx : BitVec 4) (data : Word) :
    txWe (packTx we idx data) = we.getLsbD 0 := by
  unfold txWe packTx; rw [BitVec.getLsbD_append, BitVec.getLsbD_append]; simp

@[simp] theorem txIdx_packTx (we : BitVec 1) (idx : BitVec 4) (data : Word) :
    txIdx (packTx we idx data) = idx := by
  apply BitVec.eq_of_getLsbD_eq
  intro i hi
  unfold txIdx packTx
  rw [BitVec.getLsbD_extractLsb', BitVec.getLsbD_append, BitVec.getLsbD_append]
  simp [hi, show 32 + i < 36 by omega]

@[simp] theorem txData_packTx (we : BitVec 1) (idx : BitVec 4) (data : Word) :
    txData (packTx we idx data) = data := by
  apply BitVec.eq_of_getLsbD_eq
  intro i hi
  unfold txData packTx
  rw [BitVec.getLsbD_extractLsb', BitVec.getLsbD_append, BitVec.getLsbD_append]
  simp [hi, show i < 36 by omega]

@[simp] theorem cmdOpc_packCmd (ign : BitVec 24) (opc : BitVec 8) : cmdOpc (packCmd ign opc) = opc := by
  apply BitVec.eq_of_getLsbD_eq
  intro i hi
  unfold cmdOpc packCmd
  rw [BitVec.getLsbD_extractLsb', BitVec.getLsbD_append]
  simp [hi]

@[simp] theorem cmdIgn_packCmd (ign : BitVec 24) (opc : BitVec 8) : cmdIgn (packCmd ign opc) = ign := by
  apply BitVec.eq_of_getLsbD_eq
  intro i hi
  unfold cmdIgn packCmd
  rw [BitVec.getLsbD_extractLsb', BitVec.getLsbD_append]
  simp [hi]

/-- A host transaction is its fields put together. -/
theorem packTx_fields (t : BitVec 37) : packTx (BitVec.ofBool (txWe t)) (txIdx t) (txData t) = t := by
  apply BitVec.eq_of_getLsbD_eq
  intro i hi
  unfold packTx txWe txIdx txData
  rw [BitVec.getLsbD_append, BitVec.getLsbD_append]
  by_cases h36 : i < 36
  · by_cases h32 : i < 32
    · simp [h36, h32]
    · simp [h36, h32, show i - 32 < 4 by omega, show 32 + (i - 32) = i by omega]
  · have : i = 36 := by omega
    subst this; simp

/-- A command word is its fields put together. -/
theorem packCmd_fields (c : Word) : packCmd (cmdIgn c) (cmdOpc c) = c := by
  apply BitVec.eq_of_getLsbD_eq
  intro i hi
  unfold packCmd cmdIgn cmdOpc
  rw [BitVec.getLsbD_append]
  by_cases h : i < 8
  · simp [h]
  · simp [h, show i - 8 < 24 by omega, show 8 + (i - 8) = i by omega]

theorem cmdOpc_toNat (c : Word) : (cmdOpc c).toNat = c.toNat % 256 := by simp [cmdOpc]

/-! ## The illegal rows: their opcodes are none of the four commands and have the row's leading one -/

theorem illegal04_opc : ∀ low : BitVec 2, ∀ ign, decodeOpc (1#6 ++ low) ign = .illegal04 low ign := by
  intro low ign
  have h : ∀ low : BitVec 2, (1#6 ++ low : BitVec 8) ≠ 0#8 ∧ (1#6 ++ low : BitVec 8) ≠ 1#8 ∧
    (1#6 ++ low : BitVec 8) ≠ 2#8 ∧ (1#6 ++ low : BitVec 8) ≠ 3#8 ∧
    BitVec.getLsbD (w := 8) (1#6 ++ low) 7 = false ∧ BitVec.getLsbD (w := 8) (1#6 ++ low) 6 = false ∧
    BitVec.getLsbD (w := 8) (1#6 ++ low) 5 = false ∧ BitVec.getLsbD (w := 8) (1#6 ++ low) 4 = false ∧
    BitVec.getLsbD (w := 8) (1#6 ++ low) 3 = false ∧ BitVec.extractLsb' (n := 8) 0 2 (1#6 ++ low) = low := by decide
  obtain ⟨h0, h1, h2, h3, h7, h6, h5, h4, h8, hl⟩ := h low
  unfold decodeOpc
  simp only [h0, h1, h2, h3, h7, h6, h5, h4, h8, hl, if_false, Bool.false_eq_true]

theorem illegal08_opc : ∀ low : BitVec 3, ∀ ign, decodeOpc (1#5 ++ low) ign = .illegal08 low ign := by
  intro low ign
  have h : ∀ low : BitVec 3, (1#5 ++ low : BitVec 8) ≠ 0#8 ∧ (1#5 ++ low : BitVec 8) ≠ 1#8 ∧
    (1#5 ++ low : BitVec 8) ≠ 2#8 ∧ (1#5 ++ low : BitVec 8) ≠ 3#8 ∧
    BitVec.getLsbD (w := 8) (1#5 ++ low) 7 = false ∧ BitVec.getLsbD (w := 8) (1#5 ++ low) 6 = false ∧
    BitVec.getLsbD (w := 8) (1#5 ++ low) 5 = false ∧ BitVec.getLsbD (w := 8) (1#5 ++ low) 4 = false ∧
    BitVec.getLsbD (w := 8) (1#5 ++ low) 3 = true ∧ BitVec.extractLsb' (n := 8) 0 3 (1#5 ++ low) = low := by decide
  obtain ⟨h0, h1, h2, h3, h7, h6, h5, h4, h8, hl⟩ := h low
  unfold decodeOpc
  simp only [h0, h1, h2, h3, h7, h6, h5, h4, h8, hl, if_false, if_true, Bool.false_eq_true]

theorem illegal10_opc : ∀ low : BitVec 4, ∀ ign, decodeOpc (1#4 ++ low) ign = .illegal10 low ign := by
  intro low ign
  have h : ∀ low : BitVec 4, (1#4 ++ low : BitVec 8) ≠ 0#8 ∧ (1#4 ++ low : BitVec 8) ≠ 1#8 ∧
    (1#4 ++ low : BitVec 8) ≠ 2#8 ∧ (1#4 ++ low : BitVec 8) ≠ 3#8 ∧
    BitVec.getLsbD (w := 8) (1#4 ++ low) 7 = false ∧ BitVec.getLsbD (w := 8) (1#4 ++ low) 6 = false ∧
    BitVec.getLsbD (w := 8) (1#4 ++ low) 5 = false ∧ BitVec.getLsbD (w := 8) (1#4 ++ low) 4 = true ∧
    BitVec.extractLsb' (n := 8) 0 4 (1#4 ++ low) = low := by decide
  obtain ⟨h0, h1, h2, h3, h7, h6, h5, h4, hl⟩ := h low
  unfold decodeOpc
  simp only [h0, h1, h2, h3, h7, h6, h5, h4, hl, if_false, if_true, Bool.false_eq_true]

theorem illegal20_opc : ∀ low : BitVec 5, ∀ ign, decodeOpc (1#3 ++ low) ign = .illegal20 low ign := by
  intro low ign
  have h : ∀ low : BitVec 5, (1#3 ++ low : BitVec 8) ≠ 0#8 ∧ (1#3 ++ low : BitVec 8) ≠ 1#8 ∧
    (1#3 ++ low : BitVec 8) ≠ 2#8 ∧ (1#3 ++ low : BitVec 8) ≠ 3#8 ∧
    BitVec.getLsbD (w := 8) (1#3 ++ low) 7 = false ∧ BitVec.getLsbD (w := 8) (1#3 ++ low) 6 = false ∧
    BitVec.getLsbD (w := 8) (1#3 ++ low) 5 = true ∧ BitVec.extractLsb' (n := 8) 0 5 (1#3 ++ low) = low := by decide
  obtain ⟨h0, h1, h2, h3, h7, h6, h5, hl⟩ := h low
  unfold decodeOpc
  simp only [h0, h1, h2, h3, h7, h6, h5, hl, if_false, if_true, Bool.false_eq_true]

theorem illegal40_opc : ∀ low : BitVec 6, ∀ ign, decodeOpc (1#2 ++ low) ign = .illegal40 low ign := by
  intro low ign
  have h : ∀ low : BitVec 6, (1#2 ++ low : BitVec 8) ≠ 0#8 ∧ (1#2 ++ low : BitVec 8) ≠ 1#8 ∧
    (1#2 ++ low : BitVec 8) ≠ 2#8 ∧ (1#2 ++ low : BitVec 8) ≠ 3#8 ∧
    BitVec.getLsbD (w := 8) (1#2 ++ low) 7 = false ∧ BitVec.getLsbD (w := 8) (1#2 ++ low) 6 = true ∧
    BitVec.extractLsb' (n := 8) 0 6 (1#2 ++ low) = low := by decide
  obtain ⟨h0, h1, h2, h3, h7, h6, hl⟩ := h low
  unfold decodeOpc
  simp only [h0, h1, h2, h3, h7, h6, hl, if_false, if_true, Bool.false_eq_true]

theorem illegal80_opc : ∀ low : BitVec 7, ∀ ign, decodeOpc (1#1 ++ low) ign = .illegal80 low ign := by
  intro low ign
  have h : ∀ low : BitVec 7, (1#1 ++ low : BitVec 8) ≠ 0#8 ∧ (1#1 ++ low : BitVec 8) ≠ 1#8 ∧
    (1#1 ++ low : BitVec 8) ≠ 2#8 ∧ (1#1 ++ low : BitVec 8) ≠ 3#8 ∧
    BitVec.getLsbD (w := 8) (1#1 ++ low) 7 = true ∧ BitVec.extractLsb' (n := 8) 0 7 (1#1 ++ low) = low := by decide
  obtain ⟨h0, h1, h2, h3, h7, hl⟩ := h low
  unfold decodeOpc
  simp only [h0, h1, h2, h3, h7, hl, if_false, if_true]

end Sys2Proof
end

