-- ==== Sys2Proof/Laws/State.lean ====
section
/-! SUPPORT. Laws/State.lean: one lemma per field per named update of State, each true by rfl, so that no later proof unfolds
a record update; and the same for the accessors of CTRL that the engine reads. -/

namespace Sys2Proof.Machine

variable (s : State)

/-! ### `beginCommand` clears DONE and ERR (R196) -/

@[simp] theorem beginCommand_ctrl : (beginCommand s).ctrl = s.ctrl := rfl
@[simp] theorem beginCommand_poly : (beginCommand s).poly = s.poly := rfl
@[simp] theorem beginCommand_seed : (beginCommand s).seed = s.seed := rfl
@[simp] theorem beginCommand_startAddr : (beginCommand s).startAddr = s.startAddr := rfl
@[simp] theorem beginCommand_endAddr : (beginCommand s).endAddr = s.endAddr := rfl
@[simp] theorem beginCommand_status : (beginCommand s).status = setDone false (setErr 0#4 s.status) := rfl
@[simp] theorem beginCommand_result : (beginCommand s).result = s.result := rfl
@[simp] theorem beginCommand_reflIn : (beginCommand s).reflIn = s.reflIn := rfl
@[simp] theorem beginCommand_reflWidth : (beginCommand s).reflWidth = s.reflWidth := rfl
@[simp] theorem beginCommand_reflOut : (beginCommand s).reflOut = s.reflOut := rfl
@[simp] theorem beginCommand_phase : (beginCommand s).phase = s.phase := rfl
@[simp] theorem beginCommand_acc : (beginCommand s).acc = s.acc := rfl
@[simp] theorem beginCommand_cur : (beginCommand s).cur = s.cur := rfl
@[simp] theorem beginCommand_left : (beginCommand s).left = s.left := rfl
@[simp] theorem beginCommand_image : (beginCommand s).image = s.image := rfl
@[simp] theorem beginCommand_turns : (beginCommand s).turns = s.turns := rfl
@[simp] theorem beginCommand_rdata : (beginCommand s).rdata = s.rdata := rfl
@[simp] theorem beginCommand_regWidth : (beginCommand s).regWidth = s.regWidth := rfl
@[simp] theorem beginCommand_width : (beginCommand s).width = s.width := rfl
@[simp] theorem beginCommand_refin : (beginCommand s).refin = s.refin := rfl
@[simp] theorem beginCommand_refout : (beginCommand s).refout = s.refout := rfl
@[simp] theorem beginCommand_finalXor : (beginCommand s).finalXor = s.finalXor := rfl
@[simp] theorem beginCommand_applyMode : (beginCommand s).applyMode = s.applyMode := rfl
@[simp] theorem beginCommand_valWsize : (beginCommand s).valWsize = s.valWsize := rfl
@[simp] theorem beginCommand_reflectWidth : (beginCommand s).reflectWidth = s.reflectWidth := rfl
@[simp] theorem beginCommand_crcConfig : (beginCommand s).crcConfig = s.crcConfig := rfl
@[simp] theorem beginCommand_rangeLength : (beginCommand s).rangeLength = s.rangeLength := rfl

/-! ### `complete` writes STATUS only -/

@[simp] theorem complete_ctrl (code : BitVec 4) : (complete code s).ctrl = s.ctrl := rfl
@[simp] theorem complete_poly (code : BitVec 4) : (complete code s).poly = s.poly := rfl
@[simp] theorem complete_seed (code : BitVec 4) : (complete code s).seed = s.seed := rfl
@[simp] theorem complete_startAddr (code : BitVec 4) : (complete code s).startAddr = s.startAddr := rfl
@[simp] theorem complete_endAddr (code : BitVec 4) : (complete code s).endAddr = s.endAddr := rfl
@[simp] theorem complete_status (code : BitVec 4) : (complete code s).status = setDone true (setErr code s.status) := rfl
@[simp] theorem complete_result (code : BitVec 4) : (complete code s).result = s.result := rfl
@[simp] theorem complete_reflIn (code : BitVec 4) : (complete code s).reflIn = s.reflIn := rfl
@[simp] theorem complete_reflWidth (code : BitVec 4) : (complete code s).reflWidth = s.reflWidth := rfl
@[simp] theorem complete_reflOut (code : BitVec 4) : (complete code s).reflOut = s.reflOut := rfl
@[simp] theorem complete_phase (code : BitVec 4) : (complete code s).phase = s.phase := rfl
@[simp] theorem complete_acc (code : BitVec 4) : (complete code s).acc = s.acc := rfl
@[simp] theorem complete_cur (code : BitVec 4) : (complete code s).cur = s.cur := rfl
@[simp] theorem complete_left (code : BitVec 4) : (complete code s).left = s.left := rfl
@[simp] theorem complete_image (code : BitVec 4) : (complete code s).image = s.image := rfl
@[simp] theorem complete_turns (code : BitVec 4) : (complete code s).turns = s.turns := rfl
@[simp] theorem complete_rdata (code : BitVec 4) : (complete code s).rdata = s.rdata := rfl
@[simp] theorem complete_regWidth (code : BitVec 4) : (complete code s).regWidth = s.regWidth := rfl
@[simp] theorem complete_width (code : BitVec 4) : (complete code s).width = s.width := rfl
@[simp] theorem complete_refin (code : BitVec 4) : (complete code s).refin = s.refin := rfl
@[simp] theorem complete_refout (code : BitVec 4) : (complete code s).refout = s.refout := rfl
@[simp] theorem complete_finalXor (code : BitVec 4) : (complete code s).finalXor = s.finalXor := rfl
@[simp] theorem complete_applyMode (code : BitVec 4) : (complete code s).applyMode = s.applyMode := rfl
@[simp] theorem complete_valWsize (code : BitVec 4) : (complete code s).valWsize = s.valWsize := rfl
@[simp] theorem complete_reflectWidth (code : BitVec 4) : (complete code s).reflectWidth = s.reflectWidth := rfl
@[simp] theorem complete_crcConfig (code : BitVec 4) : (complete code s).crcConfig = s.crcConfig := rfl
@[simp] theorem complete_rangeLength (code : BitVec 4) : (complete code s).rangeLength = s.rangeLength := rfl

/-! ### `raiseError` writes STATUS only (R210) -/

@[simp] theorem raiseError_ctrl (e : ErrorCode) : (raiseError e s).ctrl = s.ctrl := rfl
@[simp] theorem raiseError_poly (e : ErrorCode) : (raiseError e s).poly = s.poly := rfl
@[simp] theorem raiseError_seed (e : ErrorCode) : (raiseError e s).seed = s.seed := rfl
@[simp] theorem raiseError_startAddr (e : ErrorCode) : (raiseError e s).startAddr = s.startAddr := rfl
@[simp] theorem raiseError_endAddr (e : ErrorCode) : (raiseError e s).endAddr = s.endAddr := rfl
@[simp] theorem raiseError_status (e : ErrorCode) : (raiseError e s).status = setDone true (setErr e.code s.status) := rfl
@[simp] theorem raiseError_result (e : ErrorCode) : (raiseError e s).result = s.result := rfl
@[simp] theorem raiseError_reflIn (e : ErrorCode) : (raiseError e s).reflIn = s.reflIn := rfl
@[simp] theorem raiseError_reflWidth (e : ErrorCode) : (raiseError e s).reflWidth = s.reflWidth := rfl
@[simp] theorem raiseError_reflOut (e : ErrorCode) : (raiseError e s).reflOut = s.reflOut := rfl
@[simp] theorem raiseError_phase (e : ErrorCode) : (raiseError e s).phase = s.phase := rfl
@[simp] theorem raiseError_acc (e : ErrorCode) : (raiseError e s).acc = s.acc := rfl
@[simp] theorem raiseError_cur (e : ErrorCode) : (raiseError e s).cur = s.cur := rfl
@[simp] theorem raiseError_left (e : ErrorCode) : (raiseError e s).left = s.left := rfl
@[simp] theorem raiseError_image (e : ErrorCode) : (raiseError e s).image = s.image := rfl
@[simp] theorem raiseError_turns (e : ErrorCode) : (raiseError e s).turns = s.turns := rfl
@[simp] theorem raiseError_rdata (e : ErrorCode) : (raiseError e s).rdata = s.rdata := rfl
@[simp] theorem raiseError_regWidth (e : ErrorCode) : (raiseError e s).regWidth = s.regWidth := rfl
@[simp] theorem raiseError_width (e : ErrorCode) : (raiseError e s).width = s.width := rfl
@[simp] theorem raiseError_refin (e : ErrorCode) : (raiseError e s).refin = s.refin := rfl
@[simp] theorem raiseError_refout (e : ErrorCode) : (raiseError e s).refout = s.refout := rfl
@[simp] theorem raiseError_finalXor (e : ErrorCode) : (raiseError e s).finalXor = s.finalXor := rfl
@[simp] theorem raiseError_applyMode (e : ErrorCode) : (raiseError e s).applyMode = s.applyMode := rfl
@[simp] theorem raiseError_valWsize (e : ErrorCode) : (raiseError e s).valWsize = s.valWsize := rfl
@[simp] theorem raiseError_reflectWidth (e : ErrorCode) : (raiseError e s).reflectWidth = s.reflectWidth := rfl
@[simp] theorem raiseError_crcConfig (e : ErrorCode) : (raiseError e s).crcConfig = s.crcConfig := rfl
@[simp] theorem raiseError_rangeLength (e : ErrorCode) : (raiseError e s).rangeLength = s.rangeLength := rfl

/-! ### `rejectCompute` writes RESULT and STATUS (R150) -/

@[simp] theorem rejectCompute_ctrl (e : ErrorCode) : (rejectCompute e s).ctrl = s.ctrl := rfl
@[simp] theorem rejectCompute_poly (e : ErrorCode) : (rejectCompute e s).poly = s.poly := rfl
@[simp] theorem rejectCompute_seed (e : ErrorCode) : (rejectCompute e s).seed = s.seed := rfl
@[simp] theorem rejectCompute_startAddr (e : ErrorCode) : (rejectCompute e s).startAddr = s.startAddr := rfl
@[simp] theorem rejectCompute_endAddr (e : ErrorCode) : (rejectCompute e s).endAddr = s.endAddr := rfl
@[simp] theorem rejectCompute_status (e : ErrorCode) : (rejectCompute e s).status = setDone true (setErr e.code s.status) := rfl
@[simp] theorem rejectCompute_result (e : ErrorCode) : (rejectCompute e s).result = 0#32 := rfl
@[simp] theorem rejectCompute_reflIn (e : ErrorCode) : (rejectCompute e s).reflIn = s.reflIn := rfl
@[simp] theorem rejectCompute_reflWidth (e : ErrorCode) : (rejectCompute e s).reflWidth = s.reflWidth := rfl
@[simp] theorem rejectCompute_reflOut (e : ErrorCode) : (rejectCompute e s).reflOut = s.reflOut := rfl
@[simp] theorem rejectCompute_phase (e : ErrorCode) : (rejectCompute e s).phase = s.phase := rfl
@[simp] theorem rejectCompute_acc (e : ErrorCode) : (rejectCompute e s).acc = s.acc := rfl
@[simp] theorem rejectCompute_cur (e : ErrorCode) : (rejectCompute e s).cur = s.cur := rfl
@[simp] theorem rejectCompute_left (e : ErrorCode) : (rejectCompute e s).left = s.left := rfl
@[simp] theorem rejectCompute_image (e : ErrorCode) : (rejectCompute e s).image = s.image := rfl
@[simp] theorem rejectCompute_turns (e : ErrorCode) : (rejectCompute e s).turns = s.turns := rfl
@[simp] theorem rejectCompute_rdata (e : ErrorCode) : (rejectCompute e s).rdata = s.rdata := rfl
@[simp] theorem rejectCompute_regWidth (e : ErrorCode) : (rejectCompute e s).regWidth = s.regWidth := rfl
@[simp] theorem rejectCompute_width (e : ErrorCode) : (rejectCompute e s).width = s.width := rfl
@[simp] theorem rejectCompute_refin (e : ErrorCode) : (rejectCompute e s).refin = s.refin := rfl
@[simp] theorem rejectCompute_refout (e : ErrorCode) : (rejectCompute e s).refout = s.refout := rfl
@[simp] theorem rejectCompute_finalXor (e : ErrorCode) : (rejectCompute e s).finalXor = s.finalXor := rfl
@[simp] theorem rejectCompute_applyMode (e : ErrorCode) : (rejectCompute e s).applyMode = s.applyMode := rfl
@[simp] theorem rejectCompute_valWsize (e : ErrorCode) : (rejectCompute e s).valWsize = s.valWsize := rfl
@[simp] theorem rejectCompute_reflectWidth (e : ErrorCode) : (rejectCompute e s).reflectWidth = s.reflectWidth := rfl
@[simp] theorem rejectCompute_crcConfig (e : ErrorCode) : (rejectCompute e s).crcConfig = s.crcConfig := rfl
@[simp] theorem rejectCompute_rangeLength (e : ErrorCode) : (rejectCompute e s).rangeLength = s.rangeLength := rfl

/-! ### `startEngine` writes the hidden state and STATUS (R150) -/

@[simp] theorem startEngine_ctrl : (startEngine s).ctrl = s.ctrl := rfl
@[simp] theorem startEngine_poly : (startEngine s).poly = s.poly := rfl
@[simp] theorem startEngine_seed : (startEngine s).seed = s.seed := rfl
@[simp] theorem startEngine_startAddr : (startEngine s).startAddr = s.startAddr := rfl
@[simp] theorem startEngine_endAddr : (startEngine s).endAddr = s.endAddr := rfl
@[simp] theorem startEngine_status : (startEngine s).status = setBusy true s.status := rfl
@[simp] theorem startEngine_result : (startEngine s).result = s.result := rfl
@[simp] theorem startEngine_reflIn : (startEngine s).reflIn = s.reflIn := rfl
@[simp] theorem startEngine_reflWidth : (startEngine s).reflWidth = s.reflWidth := rfl
@[simp] theorem startEngine_reflOut : (startEngine s).reflOut = s.reflOut := rfl
@[simp] theorem startEngine_phase : (startEngine s).phase = nextPhase s.startAddr s.endAddr := rfl
@[simp] theorem startEngine_acc : (startEngine s).acc = initAcc s.width s.seed := rfl
@[simp] theorem startEngine_cur : (startEngine s).cur = s.startAddr := rfl
@[simp] theorem startEngine_left : (startEngine s).left = 0#4 := rfl
@[simp] theorem startEngine_image : (startEngine s).image = s.image := rfl
@[simp] theorem startEngine_turns : (startEngine s).turns = s.turns := rfl
@[simp] theorem startEngine_rdata : (startEngine s).rdata = s.rdata := rfl
@[simp] theorem startEngine_regWidth : (startEngine s).regWidth = s.regWidth := rfl
@[simp] theorem startEngine_width : (startEngine s).width = s.width := rfl
@[simp] theorem startEngine_refin : (startEngine s).refin = s.refin := rfl
@[simp] theorem startEngine_refout : (startEngine s).refout = s.refout := rfl
@[simp] theorem startEngine_finalXor : (startEngine s).finalXor = s.finalXor := rfl
@[simp] theorem startEngine_applyMode : (startEngine s).applyMode = s.applyMode := rfl
@[simp] theorem startEngine_valWsize : (startEngine s).valWsize = s.valWsize := rfl
@[simp] theorem startEngine_reflectWidth : (startEngine s).reflectWidth = s.reflectWidth := rfl
@[simp] theorem startEngine_crcConfig : (startEngine s).crcConfig = s.crcConfig := rfl
@[simp] theorem startEngine_rangeLength : (startEngine s).rangeLength = s.rangeLength := rfl

/-! ### `absorbByte` writes the hidden state but the cursor (R151) -/

@[simp] theorem absorbByte_ctrl (b : Byte) : (absorbByte b s).ctrl = s.ctrl := rfl
@[simp] theorem absorbByte_poly (b : Byte) : (absorbByte b s).poly = s.poly := rfl
@[simp] theorem absorbByte_seed (b : Byte) : (absorbByte b s).seed = s.seed := rfl
@[simp] theorem absorbByte_startAddr (b : Byte) : (absorbByte b s).startAddr = s.startAddr := rfl
@[simp] theorem absorbByte_endAddr (b : Byte) : (absorbByte b s).endAddr = s.endAddr := rfl
@[simp] theorem absorbByte_status (b : Byte) : (absorbByte b s).status = s.status := rfl
@[simp] theorem absorbByte_result (b : Byte) : (absorbByte b s).result = s.result := rfl
@[simp] theorem absorbByte_reflIn (b : Byte) : (absorbByte b s).reflIn = s.reflIn := rfl
@[simp] theorem absorbByte_reflWidth (b : Byte) : (absorbByte b s).reflWidth = s.reflWidth := rfl
@[simp] theorem absorbByte_reflOut (b : Byte) : (absorbByte b s).reflOut = s.reflOut := rfl
@[simp] theorem absorbByte_phase (b : Byte) : (absorbByte b s).phase = .shift := rfl
@[simp] theorem absorbByte_acc (b : Byte) : (absorbByte b s).acc = absorbAcc s.width s.refin s.acc b := rfl
@[simp] theorem absorbByte_cur (b : Byte) : (absorbByte b s).cur = s.cur := rfl
@[simp] theorem absorbByte_left (b : Byte) : (absorbByte b s).left = 8#4 := rfl
@[simp] theorem absorbByte_image (b : Byte) : (absorbByte b s).image = s.image := rfl
@[simp] theorem absorbByte_turns (b : Byte) : (absorbByte b s).turns = s.turns := rfl
@[simp] theorem absorbByte_rdata (b : Byte) : (absorbByte b s).rdata = s.rdata := rfl
@[simp] theorem absorbByte_regWidth (b : Byte) : (absorbByte b s).regWidth = s.regWidth := rfl
@[simp] theorem absorbByte_width (b : Byte) : (absorbByte b s).width = s.width := rfl
@[simp] theorem absorbByte_refin (b : Byte) : (absorbByte b s).refin = s.refin := rfl
@[simp] theorem absorbByte_refout (b : Byte) : (absorbByte b s).refout = s.refout := rfl
@[simp] theorem absorbByte_finalXor (b : Byte) : (absorbByte b s).finalXor = s.finalXor := rfl
@[simp] theorem absorbByte_applyMode (b : Byte) : (absorbByte b s).applyMode = s.applyMode := rfl
@[simp] theorem absorbByte_valWsize (b : Byte) : (absorbByte b s).valWsize = s.valWsize := rfl
@[simp] theorem absorbByte_reflectWidth (b : Byte) : (absorbByte b s).reflectWidth = s.reflectWidth := rfl
@[simp] theorem absorbByte_crcConfig (b : Byte) : (absorbByte b s).crcConfig = s.crcConfig := rfl
@[simp] theorem absorbByte_rangeLength (b : Byte) : (absorbByte b s).rangeLength = s.rangeLength := rfl

/-! ### `shiftOnce` writes the accumulator and the count (R152) -/

@[simp] theorem shiftOnce_ctrl : (shiftOnce s).ctrl = s.ctrl := rfl
@[simp] theorem shiftOnce_poly : (shiftOnce s).poly = s.poly := rfl
@[simp] theorem shiftOnce_seed : (shiftOnce s).seed = s.seed := rfl
@[simp] theorem shiftOnce_startAddr : (shiftOnce s).startAddr = s.startAddr := rfl
@[simp] theorem shiftOnce_endAddr : (shiftOnce s).endAddr = s.endAddr := rfl
@[simp] theorem shiftOnce_status : (shiftOnce s).status = s.status := rfl
@[simp] theorem shiftOnce_result : (shiftOnce s).result = s.result := rfl
@[simp] theorem shiftOnce_reflIn : (shiftOnce s).reflIn = s.reflIn := rfl
@[simp] theorem shiftOnce_reflWidth : (shiftOnce s).reflWidth = s.reflWidth := rfl
@[simp] theorem shiftOnce_reflOut : (shiftOnce s).reflOut = s.reflOut := rfl
@[simp] theorem shiftOnce_phase : (shiftOnce s).phase = s.phase := rfl
@[simp] theorem shiftOnce_acc : (shiftOnce s).acc = shiftAcc s.width s.poly s.acc := rfl
@[simp] theorem shiftOnce_cur : (shiftOnce s).cur = s.cur := rfl
@[simp] theorem shiftOnce_left : (shiftOnce s).left = s.left - 1#4 := rfl
@[simp] theorem shiftOnce_image : (shiftOnce s).image = s.image := rfl
@[simp] theorem shiftOnce_turns : (shiftOnce s).turns = s.turns := rfl
@[simp] theorem shiftOnce_rdata : (shiftOnce s).rdata = s.rdata := rfl
@[simp] theorem shiftOnce_regWidth : (shiftOnce s).regWidth = s.regWidth := rfl
@[simp] theorem shiftOnce_width : (shiftOnce s).width = s.width := rfl
@[simp] theorem shiftOnce_refin : (shiftOnce s).refin = s.refin := rfl
@[simp] theorem shiftOnce_refout : (shiftOnce s).refout = s.refout := rfl
@[simp] theorem shiftOnce_finalXor : (shiftOnce s).finalXor = s.finalXor := rfl
@[simp] theorem shiftOnce_applyMode : (shiftOnce s).applyMode = s.applyMode := rfl
@[simp] theorem shiftOnce_valWsize : (shiftOnce s).valWsize = s.valWsize := rfl
@[simp] theorem shiftOnce_reflectWidth : (shiftOnce s).reflectWidth = s.reflectWidth := rfl
@[simp] theorem shiftOnce_crcConfig : (shiftOnce s).crcConfig = s.crcConfig := rfl
@[simp] theorem shiftOnce_rangeLength : (shiftOnce s).rangeLength = s.rangeLength := rfl

/-! ### `nextByte` writes the cursor and the phase (R152) -/

@[simp] theorem nextByte_ctrl : (nextByte s).ctrl = s.ctrl := rfl
@[simp] theorem nextByte_poly : (nextByte s).poly = s.poly := rfl
@[simp] theorem nextByte_seed : (nextByte s).seed = s.seed := rfl
@[simp] theorem nextByte_startAddr : (nextByte s).startAddr = s.startAddr := rfl
@[simp] theorem nextByte_endAddr : (nextByte s).endAddr = s.endAddr := rfl
@[simp] theorem nextByte_status : (nextByte s).status = s.status := rfl
@[simp] theorem nextByte_result : (nextByte s).result = s.result := rfl
@[simp] theorem nextByte_reflIn : (nextByte s).reflIn = s.reflIn := rfl
@[simp] theorem nextByte_reflWidth : (nextByte s).reflWidth = s.reflWidth := rfl
@[simp] theorem nextByte_reflOut : (nextByte s).reflOut = s.reflOut := rfl
@[simp] theorem nextByte_phase : (nextByte s).phase = nextPhase (s.cur + 1#32) s.endAddr := rfl
@[simp] theorem nextByte_acc : (nextByte s).acc = s.acc := rfl
@[simp] theorem nextByte_cur : (nextByte s).cur = s.cur + 1#32 := rfl
@[simp] theorem nextByte_left : (nextByte s).left = s.left := rfl
@[simp] theorem nextByte_image : (nextByte s).image = s.image := rfl
@[simp] theorem nextByte_turns : (nextByte s).turns = s.turns := rfl
@[simp] theorem nextByte_rdata : (nextByte s).rdata = s.rdata := rfl
@[simp] theorem nextByte_regWidth : (nextByte s).regWidth = s.regWidth := rfl
@[simp] theorem nextByte_width : (nextByte s).width = s.width := rfl
@[simp] theorem nextByte_refin : (nextByte s).refin = s.refin := rfl
@[simp] theorem nextByte_refout : (nextByte s).refout = s.refout := rfl
@[simp] theorem nextByte_finalXor : (nextByte s).finalXor = s.finalXor := rfl
@[simp] theorem nextByte_applyMode : (nextByte s).applyMode = s.applyMode := rfl
@[simp] theorem nextByte_valWsize : (nextByte s).valWsize = s.valWsize := rfl
@[simp] theorem nextByte_reflectWidth : (nextByte s).reflectWidth = s.reflectWidth := rfl
@[simp] theorem nextByte_crcConfig : (nextByte s).crcConfig = s.crcConfig := rfl
@[simp] theorem nextByte_rangeLength : (nextByte s).rangeLength = s.rangeLength := rfl

/-! ### `finalStep` writes RESULT, STATUS and the phase (R153) -/

@[simp] theorem finalStep_ctrl : (finalStep s).ctrl = s.ctrl := rfl
@[simp] theorem finalStep_poly : (finalStep s).poly = s.poly := rfl
@[simp] theorem finalStep_seed : (finalStep s).seed = s.seed := rfl
@[simp] theorem finalStep_startAddr : (finalStep s).startAddr = s.startAddr := rfl
@[simp] theorem finalStep_endAddr : (finalStep s).endAddr = s.endAddr := rfl
@[simp] theorem finalStep_status : (finalStep s).status = setErr 0#4 (setDone true (setBusy false s.status)) := rfl
@[simp] theorem finalStep_result : (finalStep s).result = finalAcc s.width s.refout s.applyMode s.finalXor s.acc := rfl
@[simp] theorem finalStep_reflIn : (finalStep s).reflIn = s.reflIn := rfl
@[simp] theorem finalStep_reflWidth : (finalStep s).reflWidth = s.reflWidth := rfl
@[simp] theorem finalStep_reflOut : (finalStep s).reflOut = s.reflOut := rfl
@[simp] theorem finalStep_phase : (finalStep s).phase = .idle := rfl
@[simp] theorem finalStep_acc : (finalStep s).acc = s.acc := rfl
@[simp] theorem finalStep_cur : (finalStep s).cur = s.cur := rfl
@[simp] theorem finalStep_left : (finalStep s).left = s.left := rfl
@[simp] theorem finalStep_image : (finalStep s).image = s.image := rfl
@[simp] theorem finalStep_turns : (finalStep s).turns = s.turns := rfl
@[simp] theorem finalStep_rdata : (finalStep s).rdata = s.rdata := rfl
@[simp] theorem finalStep_regWidth : (finalStep s).regWidth = s.regWidth := rfl
@[simp] theorem finalStep_width : (finalStep s).width = s.width := rfl
@[simp] theorem finalStep_refin : (finalStep s).refin = s.refin := rfl
@[simp] theorem finalStep_refout : (finalStep s).refout = s.refout := rfl
@[simp] theorem finalStep_finalXor : (finalStep s).finalXor = s.finalXor := rfl
@[simp] theorem finalStep_applyMode : (finalStep s).applyMode = s.applyMode := rfl
@[simp] theorem finalStep_valWsize : (finalStep s).valWsize = s.valWsize := rfl
@[simp] theorem finalStep_reflectWidth : (finalStep s).reflectWidth = s.reflectWidth := rfl
@[simp] theorem finalStep_crcConfig : (finalStep s).crcConfig = s.crcConfig := rfl
@[simp] theorem finalStep_rangeLength : (finalStep s).rangeLength = s.rangeLength := rfl

/-! ### `reflectCommand` writes REFL_OUT and STATUS (R125) -/

@[simp] theorem reflectCommand_ctrl : (reflectCommand s).ctrl = s.ctrl := rfl
@[simp] theorem reflectCommand_poly : (reflectCommand s).poly = s.poly := rfl
@[simp] theorem reflectCommand_seed : (reflectCommand s).seed = s.seed := rfl
@[simp] theorem reflectCommand_startAddr : (reflectCommand s).startAddr = s.startAddr := rfl
@[simp] theorem reflectCommand_endAddr : (reflectCommand s).endAddr = s.endAddr := rfl
@[simp] theorem reflectCommand_status : (reflectCommand s).status = setDone true (setErr 0#4 (setDone false (setErr 0#4 s.status))) := rfl
@[simp] theorem reflectCommand_result : (reflectCommand s).result = s.result := rfl
@[simp] theorem reflectCommand_reflIn : (reflectCommand s).reflIn = s.reflIn := rfl
@[simp] theorem reflectCommand_reflWidth : (reflectCommand s).reflWidth = s.reflWidth := rfl
@[simp] theorem reflectCommand_reflOut : (reflectCommand s).reflOut = reflect s.reflIn s.reflectWidth.toNat := rfl
@[simp] theorem reflectCommand_phase : (reflectCommand s).phase = s.phase := rfl
@[simp] theorem reflectCommand_acc : (reflectCommand s).acc = s.acc := rfl
@[simp] theorem reflectCommand_cur : (reflectCommand s).cur = s.cur := rfl
@[simp] theorem reflectCommand_left : (reflectCommand s).left = s.left := rfl
@[simp] theorem reflectCommand_image : (reflectCommand s).image = s.image := rfl
@[simp] theorem reflectCommand_turns : (reflectCommand s).turns = s.turns := rfl
@[simp] theorem reflectCommand_rdata : (reflectCommand s).rdata = s.rdata := rfl
@[simp] theorem reflectCommand_regWidth : (reflectCommand s).regWidth = s.regWidth := rfl
@[simp] theorem reflectCommand_width : (reflectCommand s).width = s.width := rfl
@[simp] theorem reflectCommand_refin : (reflectCommand s).refin = s.refin := rfl
@[simp] theorem reflectCommand_refout : (reflectCommand s).refout = s.refout := rfl
@[simp] theorem reflectCommand_finalXor : (reflectCommand s).finalXor = s.finalXor := rfl
@[simp] theorem reflectCommand_applyMode : (reflectCommand s).applyMode = s.applyMode := rfl
@[simp] theorem reflectCommand_valWsize : (reflectCommand s).valWsize = s.valWsize := rfl
@[simp] theorem reflectCommand_reflectWidth : (reflectCommand s).reflectWidth = s.reflectWidth := rfl
@[simp] theorem reflectCommand_crcConfig : (reflectCommand s).crcConfig = s.crcConfig := rfl
@[simp] theorem reflectCommand_rangeLength : (reflectCommand s).rangeLength = s.rangeLength := rfl

/-! ### `popTurn` takes a turn off the list -/

@[simp] theorem popTurn_ctrl : (popTurn s).ctrl = s.ctrl := rfl
@[simp] theorem popTurn_poly : (popTurn s).poly = s.poly := rfl
@[simp] theorem popTurn_seed : (popTurn s).seed = s.seed := rfl
@[simp] theorem popTurn_startAddr : (popTurn s).startAddr = s.startAddr := rfl
@[simp] theorem popTurn_endAddr : (popTurn s).endAddr = s.endAddr := rfl
@[simp] theorem popTurn_status : (popTurn s).status = s.status := rfl
@[simp] theorem popTurn_result : (popTurn s).result = s.result := rfl
@[simp] theorem popTurn_reflIn : (popTurn s).reflIn = s.reflIn := rfl
@[simp] theorem popTurn_reflWidth : (popTurn s).reflWidth = s.reflWidth := rfl
@[simp] theorem popTurn_reflOut : (popTurn s).reflOut = s.reflOut := rfl
@[simp] theorem popTurn_phase : (popTurn s).phase = s.phase := rfl
@[simp] theorem popTurn_acc : (popTurn s).acc = s.acc := rfl
@[simp] theorem popTurn_cur : (popTurn s).cur = s.cur := rfl
@[simp] theorem popTurn_left : (popTurn s).left = s.left := rfl
@[simp] theorem popTurn_image : (popTurn s).image = s.image := rfl
@[simp] theorem popTurn_turns : (popTurn s).turns = s.turns.tail := rfl
@[simp] theorem popTurn_rdata : (popTurn s).rdata = s.rdata := rfl
@[simp] theorem popTurn_regWidth : (popTurn s).regWidth = s.regWidth := rfl
@[simp] theorem popTurn_width : (popTurn s).width = s.width := rfl
@[simp] theorem popTurn_refin : (popTurn s).refin = s.refin := rfl
@[simp] theorem popTurn_refout : (popTurn s).refout = s.refout := rfl
@[simp] theorem popTurn_finalXor : (popTurn s).finalXor = s.finalXor := rfl
@[simp] theorem popTurn_applyMode : (popTurn s).applyMode = s.applyMode := rfl
@[simp] theorem popTurn_valWsize : (popTurn s).valWsize = s.valWsize := rfl
@[simp] theorem popTurn_reflectWidth : (popTurn s).reflectWidth = s.reflectWidth := rfl
@[simp] theorem popTurn_crcConfig : (popTurn s).crcConfig = s.crcConfig := rfl
@[simp] theorem popTurn_rangeLength : (popTurn s).rangeLength = s.rangeLength := rfl

/-! ### `State.withImage` replaces the image -/

@[simp] theorem State.withImage_ctrl (m : Memory) : (s.withImage m).ctrl = s.ctrl := rfl
@[simp] theorem State.withImage_poly (m : Memory) : (s.withImage m).poly = s.poly := rfl
@[simp] theorem State.withImage_seed (m : Memory) : (s.withImage m).seed = s.seed := rfl
@[simp] theorem State.withImage_startAddr (m : Memory) : (s.withImage m).startAddr = s.startAddr := rfl
@[simp] theorem State.withImage_endAddr (m : Memory) : (s.withImage m).endAddr = s.endAddr := rfl
@[simp] theorem State.withImage_status (m : Memory) : (s.withImage m).status = s.status := rfl
@[simp] theorem State.withImage_result (m : Memory) : (s.withImage m).result = s.result := rfl
@[simp] theorem State.withImage_reflIn (m : Memory) : (s.withImage m).reflIn = s.reflIn := rfl
@[simp] theorem State.withImage_reflWidth (m : Memory) : (s.withImage m).reflWidth = s.reflWidth := rfl
@[simp] theorem State.withImage_reflOut (m : Memory) : (s.withImage m).reflOut = s.reflOut := rfl
@[simp] theorem State.withImage_phase (m : Memory) : (s.withImage m).phase = s.phase := rfl
@[simp] theorem State.withImage_acc (m : Memory) : (s.withImage m).acc = s.acc := rfl
@[simp] theorem State.withImage_cur (m : Memory) : (s.withImage m).cur = s.cur := rfl
@[simp] theorem State.withImage_left (m : Memory) : (s.withImage m).left = s.left := rfl
@[simp] theorem State.withImage_image (m : Memory) : (s.withImage m).image = m := rfl
@[simp] theorem State.withImage_turns (m : Memory) : (s.withImage m).turns = s.turns := rfl
@[simp] theorem State.withImage_rdata (m : Memory) : (s.withImage m).rdata = s.rdata := rfl
@[simp] theorem State.withImage_regWidth (m : Memory) : (s.withImage m).regWidth = s.regWidth := rfl
@[simp] theorem State.withImage_width (m : Memory) : (s.withImage m).width = s.width := rfl
@[simp] theorem State.withImage_refin (m : Memory) : (s.withImage m).refin = s.refin := rfl
@[simp] theorem State.withImage_refout (m : Memory) : (s.withImage m).refout = s.refout := rfl
@[simp] theorem State.withImage_finalXor (m : Memory) : (s.withImage m).finalXor = s.finalXor := rfl
@[simp] theorem State.withImage_applyMode (m : Memory) : (s.withImage m).applyMode = s.applyMode := rfl
@[simp] theorem State.withImage_valWsize (m : Memory) : (s.withImage m).valWsize = s.valWsize := rfl
@[simp] theorem State.withImage_reflectWidth (m : Memory) : (s.withImage m).reflectWidth = s.reflectWidth := rfl
@[simp] theorem State.withImage_crcConfig (m : Memory) : (s.withImage m).crcConfig = s.crcConfig := rfl
@[simp] theorem State.withImage_rangeLength (m : Memory) : (s.withImage m).rangeLength = s.rangeLength := rfl

/-! ### `applyReset` gives every register and hidden field its reset value (R240) -/

@[simp] theorem applyReset_ctrl : (applyReset s).ctrl = 0x00010020#32 := rfl
@[simp] theorem applyReset_poly : (applyReset s).poly = 0x04C11DB7#32 := rfl
@[simp] theorem applyReset_seed : (applyReset s).seed = 0#32 := rfl
@[simp] theorem applyReset_startAddr : (applyReset s).startAddr = 0#32 := rfl
@[simp] theorem applyReset_endAddr : (applyReset s).endAddr = 0#32 := rfl
@[simp] theorem applyReset_status : (applyReset s).status = 0#32 := rfl
@[simp] theorem applyReset_result : (applyReset s).result = 0#32 := rfl
@[simp] theorem applyReset_reflIn : (applyReset s).reflIn = 0#32 := rfl
@[simp] theorem applyReset_reflWidth : (applyReset s).reflWidth = 0#32 := rfl
@[simp] theorem applyReset_reflOut : (applyReset s).reflOut = 0#32 := rfl
@[simp] theorem applyReset_phase : (applyReset s).phase = .idle := rfl
@[simp] theorem applyReset_acc : (applyReset s).acc = 0#32 := rfl
@[simp] theorem applyReset_cur : (applyReset s).cur = 0#32 := rfl
@[simp] theorem applyReset_left : (applyReset s).left = 0#4 := rfl
@[simp] theorem applyReset_image : (applyReset s).image = s.image := rfl
@[simp] theorem applyReset_turns : (applyReset s).turns = s.turns := rfl
@[simp] theorem applyReset_rdata : (applyReset s).rdata = s.rdata := rfl

end Sys2Proof.Machine
end

