-- ==== Sys2Proof/Laws/Flags.lean ====
section
/-! SUPPORT. Laws/Flags.lean: what replacing one field of STATUS does to each of its fields (R35), and the STATUS words that
completing, starting and ending a command give on the legal values of STATUS. -/

namespace Sys2Proof.Machine

theorem setBusy_bit0 (b : Bool) (w : Word) : (setBusy b w).getLsbD 0 = b := by
  cases b <;> simp [setBusy]

theorem setBusy_bit1 (b : Bool) (w : Word) : (setBusy b w).getLsbD 1 = w.getLsbD 1 := by
  cases b <;> simp [setBusy]

theorem setDone_bit0 (b : Bool) (w : Word) : (setDone b w).getLsbD 0 = w.getLsbD 0 := by
  cases b <;> simp [setDone]

theorem setDone_bit1 (b : Bool) (w : Word) : (setDone b w).getLsbD 1 = b := by
  cases b <;> simp [setDone]

theorem setErr_bit0 (e : BitVec 4) (w : Word) : (setErr e w).getLsbD 0 = w.getLsbD 0 := by
  simp [setErr]

theorem setErr_bit1 (e : BitVec 4) (w : Word) : (setErr e w).getLsbD 1 = w.getLsbD 1 := by
  simp [setErr]

@[simp] theorem setErr_err (e : BitVec 4) (w : Word) : (setErr e w).extractLsb' 4 4 = e := by
  apply BitVec.eq_of_getLsbD_eq
  intro i hi
  interval_cases i <;> simp [setErr]

@[simp] theorem setDone_err (b : Bool) (w : Word) : (setDone b w).extractLsb' 4 4 = w.extractLsb' 4 4 := by
  apply BitVec.eq_of_getLsbD_eq
  intro i hi
  interval_cases i <;> cases b <;> simp [setDone]

@[simp] theorem setBusy_err (b : Bool) (w : Word) : (setBusy b w).extractLsb' 4 4 = w.extractLsb' 4 4 := by
  apply BitVec.eq_of_getLsbD_eq
  intro i hi
  interval_cases i <;> cases b <;> simp [setBusy]

/-- Completing a command accepted while idle: STATUS is DONE with the code (R37, R38). -/
theorem status_completed (e : BitVec 4) (w : Word) (hw : w ∈ statusValues) (hb : w.getLsbD 0 = false) :
    setDone true (setErr e (setDone false (setErr 0#4 w))) = 0x02#32 ||| (e.setWidth 32 <<< 4) := by
  simp only [statusValues, List.mem_cons, List.not_mem_nil, or_false] at hw
  rcases hw with rfl | rfl | rfl | rfl | rfl | rfl
  · revert e; decide
  · exact absurd hb (by decide)
  · revert e; decide
  · revert e; decide
  · revert e; decide
  · revert e; decide

/-- A COMPUTE accepted while idle that passes validation: STATUS is BUSY alone (R150). -/
theorem status_started (w : Word) (hw : w ∈ statusValues) :
    setBusy true (setDone false (setErr 0#4 w)) = 0x01#32 := by
  simp only [statusValues, List.mem_cons, List.not_mem_nil, or_false] at hw
  rcases hw with rfl | rfl | rfl | rfl | rfl | rfl <;> decide

/-- The FINAL step: STATUS is DONE alone (R153). -/
theorem status_finished (w : Word) (hw : w ∈ statusValues) :
    setErr 0#4 (setDone true (setBusy false w)) = 0x02#32 := by
  simp only [statusValues, List.mem_cons, List.not_mem_nil, or_false] at hw
  rcases hw with rfl | rfl | rfl | rfl | rfl | rfl <;> decide

/-- Among the legal values of STATUS only 0x01 is BUSY (R35). -/
theorem status_busy (w : Word) (hw : w ∈ statusValues) : w.getLsbD 0 = true ↔ w = 0x01#32 := by
  simp only [statusValues, List.mem_cons, List.not_mem_nil, or_false] at hw
  rcases hw with rfl | rfl | rfl | rfl | rfl | rfl <;> decide

/-- BUSY and DONE are never both 1 in a legal value of STATUS (R37). -/
theorem status_not_busy_and_done (w : Word) (hw : w ∈ statusValues) :
    ¬ (w.getLsbD 0 = true ∧ w.getLsbD 1 = true) := by
  simp only [statusValues, List.mem_cons, List.not_mem_nil, or_false] at hw
  rcases hw with rfl | rfl | rfl | rfl | rfl | rfl <;> decide

/-! ### BUSY, DONE and ERR after each named update -/

variable (s : State)

@[simp] theorem beginCommand_busy : (beginCommand s).busy = s.busy := by simp only [State.busy, beginCommand_status, setDone_bit0, setErr_bit0]
@[simp] theorem beginCommand_done : (beginCommand s).done = false := by simp only [State.done, beginCommand_status, setDone_bit1]
@[simp] theorem beginCommand_err : (beginCommand s).err = 0#4 := by simp only [State.err, beginCommand_status, setDone_err, setErr_err]
@[simp] theorem complete_busy (code : BitVec 4) : (complete code s).busy = s.busy := by simp only [State.busy, complete_status, setDone_bit0, setErr_bit0]
@[simp] theorem complete_done (code : BitVec 4) : (complete code s).done = true := by simp only [State.done, complete_status, setDone_bit1]
@[simp] theorem complete_err (code : BitVec 4) : (complete code s).err = code := by simp only [State.err, complete_status, setDone_err, setErr_err]
@[simp] theorem raiseError_busy (e : ErrorCode) : (raiseError e s).busy = s.busy := by simp only [State.busy, raiseError_status, setDone_bit0, setErr_bit0]
@[simp] theorem raiseError_done (e : ErrorCode) : (raiseError e s).done = true := by simp only [State.done, raiseError_status, setDone_bit1]
@[simp] theorem raiseError_err (e : ErrorCode) : (raiseError e s).err = e.code := by simp only [State.err, raiseError_status, setDone_err, setErr_err]
@[simp] theorem rejectCompute_busy (e : ErrorCode) : (rejectCompute e s).busy = s.busy := by simp only [State.busy, rejectCompute_status, setDone_bit0, setErr_bit0]
@[simp] theorem rejectCompute_done (e : ErrorCode) : (rejectCompute e s).done = true := by simp only [State.done, rejectCompute_status, setDone_bit1]
@[simp] theorem rejectCompute_err (e : ErrorCode) : (rejectCompute e s).err = e.code := by simp only [State.err, rejectCompute_status, setDone_err, setErr_err]
@[simp] theorem startEngine_busy : (startEngine s).busy = true := by simp only [State.busy, startEngine_status, setBusy_bit0]
@[simp] theorem startEngine_done : (startEngine s).done = s.done := by simp only [State.done, startEngine_status, setBusy_bit1]
@[simp] theorem startEngine_err : (startEngine s).err = s.err := by simp only [State.err, startEngine_status, setBusy_err]
@[simp] theorem finalStep_busy : (finalStep s).busy = false := by simp only [State.busy, finalStep_status, setErr_bit0, setDone_bit0, setBusy_bit0]
@[simp] theorem finalStep_done : (finalStep s).done = true := by simp only [State.done, finalStep_status, setErr_bit1, setDone_bit1]
@[simp] theorem finalStep_err : (finalStep s).err = 0#4 := by simp only [State.err, finalStep_status, setErr_err]
@[simp] theorem reflectCommand_busy : (reflectCommand s).busy = s.busy := by simp only [State.busy, reflectCommand_status, setDone_bit0, setErr_bit0]
@[simp] theorem reflectCommand_done : (reflectCommand s).done = true := by simp only [State.done, reflectCommand_status, setDone_bit1]
@[simp] theorem reflectCommand_err : (reflectCommand s).err = 0#4 := by simp only [State.err, reflectCommand_status, setDone_err, setErr_err]
@[simp] theorem absorbByte_busy (b : Byte) : (absorbByte b s).busy = s.busy := rfl
@[simp] theorem absorbByte_done (b : Byte) : (absorbByte b s).done = s.done := rfl
@[simp] theorem absorbByte_err (b : Byte) : (absorbByte b s).err = s.err := rfl
@[simp] theorem shiftOnce_busy : (shiftOnce s).busy = s.busy := rfl
@[simp] theorem shiftOnce_done : (shiftOnce s).done = s.done := rfl
@[simp] theorem shiftOnce_err : (shiftOnce s).err = s.err := rfl
@[simp] theorem nextByte_busy : (nextByte s).busy = s.busy := rfl
@[simp] theorem nextByte_done : (nextByte s).done = s.done := rfl
@[simp] theorem nextByte_err : (nextByte s).err = s.err := rfl
@[simp] theorem popTurn_busy : (popTurn s).busy = s.busy := rfl
@[simp] theorem popTurn_done : (popTurn s).done = s.done := rfl
@[simp] theorem popTurn_err : (popTurn s).err = s.err := rfl
@[simp] theorem applyReset_busy : (applyReset s).busy = false := by show State.reset.busy = _; decide
@[simp] theorem applyReset_done : (applyReset s).done = false := by show State.reset.done = _; decide
@[simp] theorem applyReset_err : (applyReset s).err = 0#4 := by show State.reset.err = _; decide

end Sys2Proof.Machine
end

