-- ==== Sys2Proof/Laws/Commands.lean ====
section
/-! SUPPORT. Laws/Commands.lean: one lemma per shared operation of the host's side, saying everything it can do: the
validator, the commands, dispatch, the write gate, and `exec` of a decoded host word. -/

namespace Sys2Proof.Machine

/-! ## The validator -/

theorem legalWidth_iff (w : BitVec 8) : legalWidth w = true ↔ w = 8#8 ∨ w = 16#8 ∨ w = 32#8 := by
  simp [legalWidth, or_assoc]

/-- A legal width is a bit count between 8 and 32. -/
theorem legalWidth_toNat {w : BitVec 8} (h : legalWidth w = true) : w.toNat = 8 ∨ w.toNat = 16 ∨ w.toNat = 32 := by
  rcases (legalWidth_iff w).mp h with rfl | rfl | rfl <;> decide

theorem width_eq (s : State) : s.width = s.ctrl.toNat % 256 := by simp [State.width, State.regWidth]

theorem legalWidth_width (s : State) :
    legalWidth s.regWidth = true ↔ s.width = 8 ∨ s.width = 16 ∨ s.width = 32 := by
  rw [legalWidth_iff, State.width]
  constructor
  · rintro (h | h | h) <;> rw [h] <;> decide
  · rintro (h | h | h)
    · exact .inl (BitVec.eq_of_toNat_eq h)
    · exact .inr (.inl (BitVec.eq_of_toNat_eq h))
    · exact .inr (.inr (BitVec.eq_of_toNat_eq h))

/-- COMPUTE's validation, with word size 1, depends on the width alone (R108). -/
theorem validate_one (a b : Word) (w : BitVec 8) :
    validate a b Config.computeWordSize w = if legalWidth w then .ok else .err .invalidRegisterWidth := by
  unfold validate
  cases h : legalWidth w with
  | false => rfl
  | true => simp

/-- The validator answers one of three verdicts, and never ILLEGAL_COMMAND. -/
theorem validate_cases (a b : Word) (ws w : BitVec 8) :
    validate a b ws w = .ok ∨ validate a b ws w = .err .invalidRegisterWidth ∨
      validate a b ws w = .err .misalignedRange := by
  unfold validate
  repeat' split
  all_goals simp

/-! ## The commands -/

/-- COMPUTE either starts the engine or is rejected, as the width is legal or not (R150). -/
theorem computeCommand_eq (s : State) :
    computeCommand s =
      if legalWidth s.regWidth then startEngine (beginCommand s)
      else rejectCompute .invalidRegisterWidth (beginCommand s) := by
  unfold computeCommand
  rw [validate_one]
  cases h : legalWidth s.regWidth <;> simp

/-- VALIDATE completes with code 0, 1 or 2 and writes STATUS only (R107). -/
theorem validateCommand_cases (s : State) :
    ∃ code : BitVec 4, (code = 0#4 ∨ code = 1#4 ∨ code = 2#4) ∧
      validateCommand s = complete code (beginCommand s) := by
  unfold validateCommand
  rcases validate_cases s.startAddr s.endAddr s.valWsize s.regWidth with h | h | h <;> rw [h]
  · exact ⟨0#4, by simp, rfl⟩
  · exact ⟨1#4, by simp, rfl⟩
  · exact ⟨2#4, by simp, rfl⟩

theorem illegalCommand_eq (s : State) : illegalCommand s = complete 3#4 (beginCommand s) := rfl

theorem reflectCommand_eq (s : State) :
    reflectCommand s =
      { complete 0#4 (beginCommand s) with reflOut := reflect s.reflIn s.reflectWidth.toNat } := rfl

theorem dispatch_zero (s : State) : dispatch 0#8 s = s := rfl
theorem dispatch_one (s : State) : dispatch 1#8 s = computeCommand s := rfl
theorem dispatch_two (s : State) : dispatch 2#8 s = validateCommand s := rfl
theorem dispatch_three (s : State) : dispatch 3#8 s = reflectCommand s := rfl

theorem dispatch_illegal {opc : BitVec 8} (h0 : opc ≠ 0#8) (h1 : opc ≠ 1#8) (h2 : opc ≠ 2#8) (h3 : opc ≠ 3#8)
    (s : State) : dispatch opc s = illegalCommand s := by
  have ne {k : BitVec 8} (h : opc ≠ k) : opc.toNat ≠ k.toNat := fun e => h (BitVec.eq_of_toNat_eq e)
  have h0 := ne h0
  have h1 := ne h1
  have h2 := ne h2
  have h3 := ne h3
  unfold dispatch
  split <;> first | contradiction | rfl

/-- Dispatch does one of five things (R196). -/
theorem dispatch_cases (opc : BitVec 8) (s : State) :
    (opc = 0#8 ∧ dispatch opc s = s) ∨ (opc = 1#8 ∧ dispatch opc s = computeCommand s) ∨
    (opc = 2#8 ∧ dispatch opc s = validateCommand s) ∨ (opc = 3#8 ∧ dispatch opc s = reflectCommand s) ∨
    (opc ≠ 0#8 ∧ opc ≠ 1#8 ∧ opc ≠ 2#8 ∧ opc ≠ 3#8 ∧ dispatch opc s = illegalCommand s) := by
  by_cases h0 : opc = 0#8
  · subst h0; exact .inl ⟨rfl, rfl⟩
  by_cases h1 : opc = 1#8
  · subst h1; exact .inr (.inl ⟨rfl, rfl⟩)
  by_cases h2 : opc = 2#8
  · subst h2; exact .inr (.inr (.inl ⟨rfl, rfl⟩))
  by_cases h3 : opc = 3#8
  · subst h3; exact .inr (.inr (.inr (.inl ⟨rfl, rfl⟩)))
  exact .inr (.inr (.inr (.inr ⟨h0, h1, h2, h3, dispatch_illegal h0 h1 h2 h3 s⟩)))

/-! ## The gate and the registers -/

theorem hostWrite_busy {s : State} (h : s.busy = true) (f : State → State) : hostWrite f s = s := by simp [hostWrite, h]

theorem hostWrite_idle {s : State} (h : s.busy = false) (f : State → State) : hostWrite f s = f s := by
  simp [hostWrite, h]

/-- The index 5 is CMD, and no other is (R83). -/
theorem regOf_cmd : ∀ idx : BitVec 4, regOf idx = .cmd ↔ idx = 5#4 := by decide

theorem writeEffect_cmd (data : Word) (s : State) : writeEffect 5#4 data s = dispatch (cmdOpc data) s := rfl

theorem writeEffect_store {idx : BitVec 4} (h : idx ≠ 5#4) (data : Word) (s : State) :
    writeEffect idx data s = writeReg (regOf idx) data s := by
  unfold writeEffect
  rw [if_neg (fun e => h ((regOf_cmd idx).mp e))]

/-- The command instruction of an opcode does, behind the gate, what dispatch does on it. -/
theorem exec_decodeOpc (opc : BitVec 8) (ign : BitVec 24) (s : State) :
    exec (decodeOpc opc ign) s = .next (hostWrite (dispatch opc) s) := by
  by_cases h0 : opc = 0#8
  · subst h0
    cases hb : s.busy <;> simp [decodeOpc, exec, execNop, hostWrite, hb, dispatch_zero]
  by_cases h1 : opc = 1#8
  · subst h1; rfl
  by_cases h2 : opc = 2#8
  · subst h2; rfl
  by_cases h3 : opc = 3#8
  · subst h3; rfl
  have hd : dispatch opc = illegalCommand := funext (dispatch_illegal h0 h1 h2 h3)
  unfold decodeOpc
  rw [if_neg h0, if_neg h1, if_neg h2, if_neg h3, hd]
  repeat' split
  all_goals rfl

/-! ## exec of a decoded host word -/

/-- Everything a host word can do: a read, nothing while busy, a store, or a command (R190, R191, R192, R196). -/
theorem exec_host_cases {w : HostWord} {s t : State} (h : exec (decode w) s = .next t) :
    (∃ idx data, decode w = .regRead idx data ∧ w.command = none ∧ t = { s with rdata := readReg (regOf idx) s }) ∨
    (s.busy = true ∧ t = s) ∨
    (s.busy = false ∧ ∃ idx data, decode w = .regWrite idx data ∧ idx ≠ 5#4 ∧ w.command = none ∧
      t = writeReg (regOf idx) data s) ∨
    (s.busy = false ∧ ∃ opc, w.command = some opc ∧ t = dispatch opc s) := by
  cases w with
  | cmd c =>
    rw [decode, exec_decodeOpc] at h
    cases hb : s.busy with
    | true => rw [hostWrite_busy hb] at h; cases h; exact .inr (.inl ⟨rfl, rfl⟩)
    | false =>
      rw [hostWrite_idle hb] at h; cases h
      exact .inr (.inr (.inr ⟨rfl, cmdOpc c, rfl, rfl⟩))
  | hosttx x =>
    by_cases hwe : txWe x = true
    · have hd : decode (.hosttx x) = .regWrite (txIdx x) (txData x) := by simp [decode, decodeHostTx, hwe]
      rw [hd, exec, execRegWrite] at h
      cases hb : s.busy with
      | true => rw [hostWrite_busy hb] at h; cases h; exact .inr (.inl ⟨rfl, rfl⟩)
      | false =>
        rw [hostWrite_idle hb] at h
        by_cases h5 : txIdx x = 5#4
        · rw [h5, writeEffect_cmd] at h
          cases h
          exact .inr (.inr (.inr ⟨rfl, cmdOpc (txData x), by simp [HostWord.command, hwe, h5], rfl⟩))
        · rw [writeEffect_store h5] at h
          cases h
          exact .inr (.inr (.inl ⟨rfl, txIdx x, txData x, hd, h5, by simp [HostWord.command, h5], rfl⟩))
    · have hd : decode (.hosttx x) = .regRead (txIdx x) (txData x) := by simp [decode, decodeHostTx, hwe]
      rw [hd, exec, execRegRead] at h
      cases h
      exact .inl ⟨txIdx x, txData x, hd, by simp [HostWord.command, hwe], rfl⟩

end Sys2Proof.Machine
end

