-- ==== Sys2Proof/Laws/Datapath.lean ====
section
/-! SUPPORT. Laws/Datapath.lean: the datapath's functions (R146) and the document's (R140) as arithmetic modulo 2^W. -/

namespace Sys2Proof.Machine

theorem mask_toNat {w : Nat} (hw : w ≤ 32) : (mask w).toNat = 2 ^ w - 1 := by
  have : 2 ^ w ≤ 2 ^ 32 := Nat.pow_le_pow_right (by omega) hw
  have h1 : 0 < 2 ^ w := Nat.two_pow_pos w
  simp only [mask, BitVec.toNat_ofNat]
  exact Nat.mod_eq_of_lt (by omega)

/-- Masking is the remainder modulo 2^W. -/
theorem and_mask_toNat {w : Nat} (hw : w ≤ 32) (x : Word) : (x &&& mask w).toNat = x.toNat % 2 ^ w := by
  rw [BitVec.toNat_and, mask_toNat hw, Nat.and_two_pow_sub_one_eq_mod]

theorem mask_bit {w j : Nat} (hw : w ≤ 32) : (mask w).getLsbD j = decide (j < w) := by
  rw [BitVec.getLsbD, mask_toNat hw, Nat.testBit_two_pow_sub_one]

theorem initAcc_toNat {w : Nat} (hw : w ≤ 32) (seed : Word) : (initAcc w seed).toNat = seed.toNat % 2 ^ w :=
  and_mask_toNat hw seed

theorem initAcc_lt {w : Nat} (hw : w ≤ 32) (seed : Word) : (initAcc w seed).toNat < 2 ^ w := by
  rw [initAcc_toNat hw]; exact Nat.mod_lt _ (Nat.two_pow_pos w)

/-- A SHIFT of the hardware register: doubled modulo 2^W, with the polynomial XORed in when bit W-1 was set. -/
theorem shiftAcc_toNat {w : Nat} (hw : w ≤ 32) (polynomial acc : Word) :
    (shiftAcc w polynomial acc).toNat =
      (2 * acc.toNat % 2 ^ w) ^^^ (if acc.getLsbD (w - 1) then polynomial.toNat % 2 ^ w else 0) := by
  have hd : 2 ^ w ∣ 2 ^ 32 := Nat.pow_dvd_pow 2 hw
  have hs : ((acc <<< 1) &&& mask w).toNat = 2 * acc.toNat % 2 ^ w := by
    rw [and_mask_toNat hw, BitVec.toNat_shiftLeft, Nat.shiftLeft_eq, Nat.mod_mod_of_dvd _ hd, Nat.mul_comm]
  unfold shiftAcc
  rw [BitVec.toNat_xor, hs]
  split
  · rw [and_mask_toNat hw]
  · rfl

theorem shiftAcc_lt {w : Nat} (hw : w ≤ 32) (polynomial acc : Word) :
    (shiftAcc w polynomial acc).toNat < 2 ^ w := by
  rw [shiftAcc_toNat hw]
  apply Nat.xor_lt_two_pow (Nat.mod_lt _ (Nat.two_pow_pos w))
  split
  · exact Nat.mod_lt _ (Nat.two_pow_pos w)
  · exact Nat.two_pow_pos w

/-- A conditional shift of the document's register, modulo 2^W: bits at W and above never come back (R147). -/
theorem refShift_mod {w : Nat} (hw : 1 ≤ w) (polynomial reg : Nat) :
    refShift w ((1 <<< w) ||| polynomial) reg % 2 ^ w =
      (2 * (reg % 2 ^ w) % 2 ^ w) ^^^ (if (reg % 2 ^ w).testBit (w - 1) then polynomial % 2 ^ w else 0) := by
  have hdouble : (reg <<< 1) % 2 ^ w = 2 * (reg % 2 ^ w) % 2 ^ w := by
    rw [Nat.shiftLeft_eq, Nat.mul_comm, pow_one, Nat.mul_mod, Nat.mul_mod 2 (reg % 2 ^ w), Nat.mod_mod]
  have hpoly : ((1 <<< w) ||| polynomial) % 2 ^ w = polynomial % 2 ^ w := by
    apply Nat.eq_of_testBit_eq
    intro j
    rw [Nat.testBit_mod_two_pow, Nat.testBit_mod_two_pow, Nat.testBit_or, Nat.one_shiftLeft, Nat.testBit_two_pow]
    by_cases hj : j < w
    · simp [hj, show w ≠ j by omega]
    · simp [hj]
  have hbit : ((reg <<< 1) &&& (1 <<< w) ≠ 0) ↔ (reg % 2 ^ w).testBit (w - 1) = true := by
    rw [Nat.testBit_mod_two_pow, Nat.one_shiftLeft, decide_eq_true (show w - 1 < w by omega), Bool.true_and,
      Nat.and_two_pow, Nat.testBit_shiftLeft, decide_eq_true (show w ≥ 1 by omega), Bool.true_and]
    cases reg.testBit (w - 1) <;> simp
  unfold refShift
  by_cases hb : (reg <<< 1) &&& (1 <<< w) ≠ 0
  · rw [if_pos hb, if_pos (hbit.mp hb), Nat.xor_mod_two_pow, hdouble, hpoly]
  · rw [if_neg hb, if_neg (fun h => hb (hbit.mpr h)), Nat.xor_zero, hdouble]

end Sys2Proof.Machine
end

