-- ==== Sys2Proof/Laws/Step.lean ====
section
/-! SUPPORT. Laws/Step.lean: everything a step can do, said once: the engine's step by phase, and the step by whose turn it
is.  Claims about steps are case analyses over these. -/

namespace Sys2Proof.Machine

/-- Everything the engine's turn can do (R151 to R154, R62). -/
theorem engineStep_cases (s : State) :
    (s.phase = .idle ∧ engineStep s = s) ∨
    (s.phase = .absorb ∧ Memory.read s.image s.cur = none ∧ engineStep s = s) ∨
    (s.phase = .absorb ∧ ∃ b, Memory.read s.image s.cur = some b ∧ engineStep s = absorbByte b s) ∨
    (s.phase = .shift ∧ s.left = 1#4 ∧ engineStep s = nextByte (shiftOnce s)) ∨
    (s.phase = .shift ∧ s.left ≠ 1#4 ∧ engineStep s = shiftOnce s) ∨
    (s.phase = .final ∧ engineStep s = finalStep s) := by
  have hleft : ∀ l : BitVec 4, l - 1#4 = 0#4 ↔ l = 1#4 := by decide
  cases hp : s.phase with
  | idle => simp [engineStep, hp]
  | absorb =>
    cases hr : Memory.read s.image s.cur with
    | none => simp [engineStep, hp, absorbStep, hr]
    | some b => simp [engineStep, hp, absorbStep, hr]
  | shift =>
    by_cases hl : s.left = 1#4
    · simp [engineStep, hp, shiftStep, hl]
    · have : (shiftOnce s).left ≠ 0#4 := fun e => hl ((hleft s.left).mp e)
      simp only [shiftOnce_left] at this
      simp [engineStep, hp, shiftStep, hl, this]
  | final => simp [engineStep, hp]

/-- A step is the run of the current turn on the state without it. -/
theorem step_eq (s : State) : step s = runTurn (currentTurn s) (popTurn s) := rfl

/-- Everything a step can do, by whose turn it is (R13, R70, R240). -/
theorem step_cases {s t : State} (h : step s = .next t) :
    (currentTurn s = .reset ∧ t = applyReset (popTurn s)) ∨
    (currentTurn s = .engine ∧ t = engineStep (popTurn s)) ∨
    (∃ w, currentTurn s = .host w ∧ exec (decode w) (popTurn s) = .next t) := by
  rw [step_eq] at h
  cases hc : currentTurn s with
  | reset => rw [hc] at h; cases h; exact .inl ⟨rfl, rfl⟩
  | engine => rw [hc] at h; cases h; exact .inr (.inl ⟨rfl, rfl⟩)
  | host w => rw [hc] at h; exact .inr (.inr ⟨w, rfl, h⟩)

/-- The step of a named turn. -/
theorem step_cons {s : State} {turn : Turn} {ts : List Turn} (h : s.turns = turn :: ts) :
    step s = runTurn turn { s with turns := ts } := by
  simp [step, currentTurn, popTurn, h]

/-- The step with no turn listed is the engine's (log entry 2). -/
theorem step_nil {s : State} (h : s.turns = []) : step s = .next (engineStep s) := by
  have : popTurn s = s := by cases s; simp only [popTurn] at *; subst h; rfl
  rw [step_eq, this]
  simp [currentTurn, h, runTurn]

/-- Where the engine moves, the step is the engine's, on the state without the turn. -/
theorem step_engineMoves {s : State} {ts : List Turn} (h : EngineMoves s ts) :
    step s = .next (engineStep { s with turns := ts }) := by
  rcases h with h | ⟨h, rfl⟩
  · exact step_cons h
  · rw [step_nil h]
    congr 2
    cases s
    subst h
    rfl

/-! ## Runs -/

theorem run_zero (s : State) : Host.Core.run Sys2Proof.core 0 s = .next s := rfl

theorem core_run_succ (M : Host.Core) (s t : M.State) (h : M.step s = .next t) (n : Nat) :
    M.run (n + 1) s = M.run n t := by
  simp only [Host.Core.run, h]

/-- A run's first step. -/
theorem run_succ {s t : State} (h : step s = .next t) (n : Nat) :
    Host.Core.run Sys2Proof.core (n + 1) s = Host.Core.run Sys2Proof.core n t :=
  core_run_succ Sys2Proof.core s t h n

end Sys2Proof.Machine
end

