-- ==== Sys2Proof/Laws/Frames.lean ====
section
/-! SUPPORT. Laws/Frames.lean: what each shared operation leaves alone, and what a dispatched command does to STATUS. -/

namespace Sys2Proof.Machine

/-- No engine step writes a configuration register, REFL_OUT, the image, or the model's own fields. -/
theorem engineStep_frame (s : State) :
    (engineStep s).ctrl = s.ctrl ∧
    (engineStep s).poly = s.poly ∧
    (engineStep s).seed = s.seed ∧
    (engineStep s).startAddr = s.startAddr ∧
    (engineStep s).endAddr = s.endAddr ∧
    (engineStep s).reflIn = s.reflIn ∧
    (engineStep s).reflWidth = s.reflWidth ∧
    (engineStep s).reflOut = s.reflOut ∧
    (engineStep s).image = s.image ∧
    (engineStep s).turns = s.turns ∧
    (engineStep s).rdata = s.rdata := by
  rcases engineStep_cases s with ⟨-, h⟩ | ⟨-, -, h⟩ | ⟨-, b, -, h⟩ | ⟨-, -, h⟩ | ⟨-, -, h⟩ | ⟨-, h⟩ <;> simp [h]

/-- A register store changes no status, result or hidden state (R191). -/
theorem writeReg_frame (r : Reg) (d : Word) (s : State) :
    (writeReg r d s).status = s.status ∧
    (writeReg r d s).result = s.result ∧
    (writeReg r d s).reflOut = s.reflOut ∧
    (writeReg r d s).phase = s.phase ∧
    (writeReg r d s).acc = s.acc ∧
    (writeReg r d s).cur = s.cur ∧
    (writeReg r d s).left = s.left ∧
    (writeReg r d s).image = s.image ∧
    (writeReg r d s).turns = s.turns ∧
    (writeReg r d s).rdata = s.rdata := by
  cases r <;> simp [writeReg]

/-- No command writes a configuration register or the image (R150, R107, R125, R194). -/
theorem dispatch_frame (opc : BitVec 8) (s : State) :
    (dispatch opc s).ctrl = s.ctrl ∧
    (dispatch opc s).poly = s.poly ∧
    (dispatch opc s).seed = s.seed ∧
    (dispatch opc s).startAddr = s.startAddr ∧
    (dispatch opc s).endAddr = s.endAddr ∧
    (dispatch opc s).reflIn = s.reflIn ∧
    (dispatch opc s).reflWidth = s.reflWidth ∧
    (dispatch opc s).image = s.image ∧
    (dispatch opc s).turns = s.turns ∧
    (dispatch opc s).rdata = s.rdata := by
  rcases dispatch_cases opc s with ⟨-, e⟩ | ⟨-, e⟩ | ⟨-, e⟩ | ⟨-, e⟩ | ⟨-, -, -, -, e⟩ <;> rw [e]
  · simp
  · rw [computeCommand_eq]; split <;> simp
  · obtain ⟨code, -, e⟩ := validateCommand_cases s
    rw [e]; simp
  · simp
  · rw [illegalCommand_eq]; simp

/-- What a dispatched command leaves in STATUS: NOP nothing, a passing COMPUTE BUSY, every other DONE (R36, R37). -/
theorem dispatch_status (opc : BitVec 8) (s : State) :
    (opc = 0#8 ∧ dispatch opc s = s) ∨
    (opc = 1#8 ∧ legalWidth s.regWidth = true ∧
      (dispatch opc s).busy = true ∧ (dispatch opc s).done = false ∧ (dispatch opc s).err = 0#4) ∨
    (opc ≠ 0#8 ∧ ¬ (opc = 1#8 ∧ legalWidth s.regWidth = true) ∧
      (dispatch opc s).busy = s.busy ∧ (dispatch opc s).done = true) := by
  rcases dispatch_cases opc s with ⟨h, e⟩ | ⟨h, e⟩ | ⟨h, e⟩ | ⟨h, e⟩ | ⟨h, h1, -, -, e⟩
  · exact .inl ⟨h, e⟩
  · rw [e, computeCommand_eq]
    right
    split
    · left; simp_all
    · right; simp_all
  · obtain ⟨code, -, e'⟩ := validateCommand_cases s
    rw [e, e']; right; right; simp_all
  · rw [e]; right; right; simp_all
  · rw [e, illegalCommand_eq]; right; right; simp_all

/-- A host word that writes CMD while idle does what dispatch does. -/
theorem host_accept {s t : State} {w : HostWord} {opc : BitVec 8} (hx : exec (decode w) s = .next t)
    (hb : s.busy = false) (ho : w.command = some opc) : t = dispatch opc s := by
  rcases exec_host_cases hx with ⟨_, _, -, hn, rfl⟩ | ⟨h, rfl⟩ | ⟨hb, idx, d, -, -, hn, rfl⟩ | ⟨hb, opc', ho', rfl⟩
  · rw [hn] at ho; cases ho
  · simp_all
  · rw [hn] at ho; cases ho
  · rw [ho] at ho'; cases ho'; rfl

/-- Putting back the turns a state already has changes nothing. -/
theorem with_turns {t : State} {ts : List Turn} (h : t.turns = ts) : ({ t with turns := ts } : State) = t := by
  cases t
  subst h
  rfl

/-- The cursor's move inside a range does not wrap (R48). -/
theorem add_one_toNat {c e : Word} (h : c.toNat < e.toNat) : (c + 1#32).toNat = c.toNat + 1 := by
  have := e.isLt
  rw [BitVec.toNat_add]
  simp
  omega

end Sys2Proof.Machine
end

