-- ==== Sys2Proof/Laws/Memory.lean ====
section
/-! SUPPORT. Laws/Memory.lean: the memory image's operations keep its canonical form, and read after write. -/

namespace Sys2Proof.Machine

theorem Memory.risingFrom_mono {lo lo' : Nat} {m : Memory} (h : lo' ≤ lo) (hm : Memory.risingFrom lo m = true) :
    Memory.risingFrom lo' m = true := by
  cases m with
  | nil => rfl
  | cons p m =>
    obtain ⟨k, b⟩ := p
    simp only [Memory.risingFrom, Bool.and_eq_true, decide_eq_true_eq] at hm ⊢
    exact ⟨⟨by omega, hm.1.2⟩, hm.2⟩

theorem Memory.risingFrom_insertAt {lo a : Nat} {b : Byte} {m : Memory} (hlo : lo ≤ a) (ha : a < 2 ^ 32)
    (hm : Memory.risingFrom lo m = true) : Memory.risingFrom lo (Memory.insertAt m a b) = true := by
  induction m generalizing lo with
  | nil => simp only [Memory.insertAt, Memory.risingFrom, Bool.and_eq_true, decide_eq_true_eq, and_true]; omega
  | cons p m ih =>
    obtain ⟨k, c⟩ := p
    simp only [Memory.risingFrom, Bool.and_eq_true, decide_eq_true_eq] at hm
    obtain ⟨⟨h1, h2⟩, h3⟩ := hm
    unfold Memory.insertAt
    split
    · rename_i hak
      simp only [Memory.risingFrom, Bool.and_eq_true, decide_eq_true_eq]
      exact ⟨⟨hlo, ha⟩, ⟨by omega, h2⟩, h3⟩
    · split
      · rename_i hak; subst hak
        simp only [Memory.risingFrom, Bool.and_eq_true, decide_eq_true_eq]
        exact ⟨⟨hlo, ha⟩, h3⟩
      · simp only [Memory.risingFrom, Bool.and_eq_true, decide_eq_true_eq]
        exact ⟨⟨h1, h2⟩, ih (by omega) h3⟩

theorem Memory.risingFrom_removeAt {lo a : Nat} {m : Memory} (hm : Memory.risingFrom lo m = true) :
    Memory.risingFrom lo (Memory.removeAt m a) = true := by
  induction m generalizing lo with
  | nil => rfl
  | cons p m ih =>
    obtain ⟨k, c⟩ := p
    simp only [Memory.risingFrom, Bool.and_eq_true, decide_eq_true_eq] at hm
    obtain ⟨⟨h1, h2⟩, h3⟩ := hm
    unfold Memory.removeAt
    split
    · exact Memory.risingFrom_mono (by omega) h3
    · simp only [Memory.risingFrom, Bool.and_eq_true, decide_eq_true_eq]
      exact ⟨⟨h1, h2⟩, ih h3⟩

/-- Loading a byte keeps the canonical form. -/
theorem Memory.wf_put {m : Memory} (a : Word) (b : Byte) (h : m.wf = true) : (m.put a b).wf = true :=
  Memory.risingFrom_insertAt (Nat.zero_le _) a.isLt h

/-- Taking the backing storage of an address away keeps the canonical form. -/
theorem Memory.wf_unback {m : Memory} (a : Word) (h : m.wf = true) : (m.unback a).wf = true :=
  Memory.risingFrom_removeAt h

/-- Loading bytes keeps the canonical form. -/
theorem Memory.wf_load {m : Memory} (a : Word) (bs : List Byte) (h : m.wf = true) : (m.load a bs).wf = true := by
  induction bs generalizing m a with
  | nil => exact h
  | cons b bs ih => exact ih _ (Memory.wf_put a b h)

theorem Memory.lookup_of_risingFrom {lo a : Nat} {m : Memory} (h : Memory.risingFrom lo m = true) (ha : a < lo) :
    Memory.lookup m a = none := by
  induction m generalizing lo with
  | nil => rfl
  | cons p m ih =>
    obtain ⟨k, c⟩ := p
    simp only [Memory.risingFrom, Bool.and_eq_true, decide_eq_true_eq] at h
    unfold Memory.lookup
    rw [if_neg (by omega)]
    exact ih h.2 (by omega)

theorem Memory.lookup_insertAt {lo : Nat} {m : Memory} (h : Memory.risingFrom lo m = true) (a x : Nat) (b : Byte) :
    Memory.lookup (Memory.insertAt m a b) x = if a = x then some b else Memory.lookup m x := by
  induction m generalizing lo with
  | nil => rfl
  | cons p m ih =>
    obtain ⟨k, c⟩ := p
    simp only [Memory.risingFrom, Bool.and_eq_true, decide_eq_true_eq] at h
    unfold Memory.insertAt
    split
    · rfl
    · split
      · rename_i hak; subst hak
        by_cases hx : a = x <;> simp [Memory.lookup, hx]
      · simp only [Memory.lookup, ih h.2]
        by_cases hk : k = x
        · rw [if_pos hk, if_neg (by omega), if_pos hk]
        · rw [if_neg hk, if_neg hk]

theorem Memory.lookup_removeAt {lo : Nat} {m : Memory} (h : Memory.risingFrom lo m = true) (a x : Nat) :
    Memory.lookup (Memory.removeAt m a) x = if a = x then none else Memory.lookup m x := by
  induction m generalizing lo with
  | nil => simp [Memory.removeAt, Memory.lookup]
  | cons p m ih =>
    obtain ⟨k, c⟩ := p
    simp only [Memory.risingFrom, Bool.and_eq_true, decide_eq_true_eq] at h
    unfold Memory.removeAt
    split
    · rename_i hk; subst hk
      by_cases hx : k = x
      · subst hx; rw [if_pos rfl]; exact Memory.lookup_of_risingFrom h.2 (by omega)
      · simp [Memory.lookup, hx]
    · simp only [Memory.lookup, ih h.2]
      by_cases hk : k = x
      · rw [if_pos hk, if_neg (by omega), if_pos hk]
      · rw [if_neg hk, if_neg hk]

/-- Reading after a load: the loaded byte at its address, the old one elsewhere. -/
theorem Memory.read_put {m : Memory} (h : m.wf = true) (a x : Word) (b : Byte) :
    (m.put a b).read x = if a = x then some b else m.read x := by
  simp only [Memory.read, Memory.put, Memory.lookup_insertAt h, BitVec.toNat_inj]

/-- Reading after an address lost its backing storage. -/
theorem Memory.read_unback {m : Memory} (h : m.wf = true) (a x : Word) :
    (m.unback a).read x = if a = x then none else m.read x := by
  simp only [Memory.read, Memory.unback, Memory.lookup_removeAt h, BitVec.toNat_inj]

/-- The image of the reset state is in canonical form. -/
theorem Memory.wf_reset : State.reset.image.wf = true := rfl

/-! ## Ranges -/

@[simp] theorem Memory.readRange_zero (m : Memory) (a : Word) : m.readRange a 0 = some [] := rfl

/-- A range of n + 1 bytes is given when its first byte is and the n after it are. -/
theorem Memory.readRange_succ {m : Memory} {a : Word} {n : Nat} {bs : List Byte}
    (h : m.readRange a (n + 1) = some bs) :
    ∃ b rest, m.read a = some b ∧ m.readRange (a + 1#32) n = some rest ∧ bs = b :: rest := by
  unfold Memory.readRange at h
  split at h
  · rename_i b rest hb hr
    exact ⟨b, rest, hb, hr, (Option.some.inj h).symm⟩
  · exact absurd h (by simp)

theorem Memory.readRange_length {m : Memory} {a : Word} {n : Nat} {bs : List Byte}
    (h : m.readRange a n = some bs) : bs.length = n := by
  induction n generalizing a bs with
  | zero => cases h; rfl
  | succ n ih =>
    obtain ⟨b, rest, -, hr, rfl⟩ := Memory.readRange_succ h
    simp [ih hr]

end Sys2Proof.Machine
end

