-- ==== Sys2Proof/Laws/PerInstr.lean ====
section
/-! SUPPORT. Laws/PerInstr.lean: the family EncodesRow: every instruction's encoded word has the format and the fixed bits of
the instruction's own row of spec/opcode_table.json. -/

namespace Sys2Proof

/-- A command word's low byte, read off as a number. -/
theorem packCmd_row (ign : BitVec 24) (opc : BitVec 8) : (packCmd ign opc).toNat &&& 0xFF = opc.toNat := by
  rw [← cmdOpc_packCmd ign opc, cmdOpc_toNat, cmdOpc_packCmd]
  exact Nat.and_two_pow_sub_one_eq_mod _ 8

/-- The bits of a command word under a mask of its low byte. -/
theorem packCmd_masked (ign : BitVec 24) (opc : BitVec 8) (m : Nat) (hm : 0xFF &&& m = m) :
    (packCmd ign opc).toNat &&& m = opc.toNat &&& m := by
  rw [← packCmd_row ign opc, Nat.and_assoc, hm]

/-- The WE bit of a host transaction, read off under the row's mask. -/
theorem packTx_row (we : BitVec 1) (idx : BitVec 4) (data : Word) :
    (packTx we idx data).toNat &&& 0x1000000000 = if we = 1#1 then 0x1000000000 else 0 := by
  have h := txWe_packTx we idx data
  simp only [txWe, BitVec.getLsbD] at h
  rw [show (0x1000000000 : Nat) = 2 ^ 36 from rfl, Nat.and_two_pow, h]
  clear h
  revert we
  decide

end Sys2Proof

namespace Sys2Proof.Laws.EncodesRow

/-- The encoded word is the instruction's own row's, by format and fixed bits. -/
def Statement (i : Instr) : Prop :=
  ∃ r, opcodeTable[i.row]? = some r ∧ r.mnemonic = i.mnemonic ∧ r.holds (encode i) = true

theorem regRead (idx : BitVec 4) (data : Word) : Statement (.regRead idx data) :=
  ⟨_, rfl, rfl, by simp [OpcodeRow.holds, encode, HostWord.format, HostWord.bits, packTx_row]⟩

theorem regWrite (idx : BitVec 4) (data : Word) : Statement (.regWrite idx data) :=
  ⟨_, rfl, rfl, by simp [OpcodeRow.holds, encode, HostWord.format, HostWord.bits, packTx_row]⟩

theorem nop (ign : BitVec 24) : Statement (.nop ign) :=
  ⟨_, rfl, rfl, by simp [OpcodeRow.holds, encode, HostWord.format, HostWord.bits, packCmd_row]⟩

theorem compute (ign : BitVec 24) : Statement (.compute ign) :=
  ⟨_, rfl, rfl, by simp [OpcodeRow.holds, encode, HostWord.format, HostWord.bits, packCmd_row]⟩

theorem validate (ign : BitVec 24) : Statement (.validate ign) :=
  ⟨_, rfl, rfl, by simp [OpcodeRow.holds, encode, HostWord.format, HostWord.bits, packCmd_row]⟩

theorem reflect (ign : BitVec 24) : Statement (.reflect ign) :=
  ⟨_, rfl, rfl, by simp [OpcodeRow.holds, encode, HostWord.format, HostWord.bits, packCmd_row]⟩

theorem illegal04 (low : BitVec 2) (ign : BitVec 24) : Statement (.illegal04 low ign) := by
  refine ⟨_, rfl, rfl, ?_⟩
  simp only [OpcodeRow.holds, encode, HostWord.format, HostWord.bits, packCmd_masked _ _ 0xFC rfl]
  revert low; decide

theorem illegal08 (low : BitVec 3) (ign : BitVec 24) : Statement (.illegal08 low ign) := by
  refine ⟨_, rfl, rfl, ?_⟩
  simp only [OpcodeRow.holds, encode, HostWord.format, HostWord.bits, packCmd_masked _ _ 0xF8 rfl]
  revert low; decide

theorem illegal10 (low : BitVec 4) (ign : BitVec 24) : Statement (.illegal10 low ign) := by
  refine ⟨_, rfl, rfl, ?_⟩
  simp only [OpcodeRow.holds, encode, HostWord.format, HostWord.bits, packCmd_masked _ _ 0xF0 rfl]
  revert low; decide

theorem illegal20 (low : BitVec 5) (ign : BitVec 24) : Statement (.illegal20 low ign) := by
  refine ⟨_, rfl, rfl, ?_⟩
  simp only [OpcodeRow.holds, encode, HostWord.format, HostWord.bits, packCmd_masked _ _ 0xE0 rfl]
  revert low; decide

theorem illegal40 (low : BitVec 6) (ign : BitVec 24) : Statement (.illegal40 low ign) := by
  refine ⟨_, rfl, rfl, ?_⟩
  simp only [OpcodeRow.holds, encode, HostWord.format, HostWord.bits, packCmd_masked _ _ 0xC0 rfl]
  revert low; decide

theorem illegal80 (low : BitVec 7) (ign : BitVec 24) : Statement (.illegal80 low ign) := by
  refine ⟨_, rfl, rfl, ?_⟩
  simp only [OpcodeRow.holds, encode, HostWord.format, HostWord.bits, packCmd_masked _ _ 0x80 rfl]
  revert low; decide

end Sys2Proof.Laws.EncodesRow
end

