-- ==== Sys2Proof/Laws/Reflector.lean ====
section
/-! SUPPORT. Laws/Reflector.lean: the bits of the two reflectors' loops after any number of passes (R120, R122). -/

namespace Sys2Proof.Machine

/-- The hardware loop after n passes has set result bits j < n, bit j from value bit w-1-j. -/
theorem reflectLoop_bit (v : Word) (w n j : Nat) (hn : n ≤ 32) :
    (reflectLoop v w n).getLsbD j = (decide (j < n) && v.getLsbD (w - 1 - j)) := by
  induction n with
  | zero => simp [reflectLoop]
  | succ n ih =>
    have ih := ih (by omega)
    unfold reflectLoop
    by_cases hv : v.getLsbD (w - 1 - n) = true
    · rw [if_pos hv, BitVec.getLsbD_or, ih]
      by_cases hj : j = n
      · subst hj; simp [hv, show j < 32 by omega]
      · have hone : (1#32 <<< n).getLsbD j = false := by
          rw [BitVec.getLsbD_shiftLeft]
          by_cases hlt : j < n
          · simp [hlt]
          · have : j - n ≠ 0 := by omega
            simp [BitVec.getLsbD_one, this]
        rw [hone, Bool.or_false]
        congr 1
        exact decide_eq_decide.mpr (by omega)
    · rw [if_neg hv, ih]
      by_cases hj : j = n
      · subst hj; simp [hv]
      · congr 1
        exact decide_eq_decide.mpr (by omega)

/-- Every term of the document's sum from pass n on is below 2^(w-n), and the sum before it is a multiple of that. -/
theorem reflectDocUpTo_dvd (v w n : Nat) (hn : n ≤ w) : 2 ^ (w - n) ∣ reflectDocUpTo v w n := by
  induction n with
  | zero => simp [reflectDocUpTo]
  | succ n ih =>
    have ih := ih (by omega)
    unfold reflectDocUpTo
    apply Nat.dvd_add
    · exact Nat.dvd_trans (Nat.pow_dvd_pow 2 (by omega)) ih
    · split
      · rw [show w - 1 - n = w - (n + 1) by omega]
      · exact Nat.dvd_zero _

/-- The document's sum after n passes has set the top n of w bits, bit j from value bit w-1-j. -/
theorem reflectDocUpTo_bit (v w n j : Nat) (hn : n ≤ w) :
    (reflectDocUpTo v w n).testBit j = (decide (w - n ≤ j ∧ j < w) && v.testBit (w - 1 - j)) := by
  induction n generalizing j with
  | zero =>
    rw [decide_eq_false (show ¬ (w - 0 ≤ j ∧ j < w) by omega), Bool.false_and]
    exact Nat.zero_testBit j
  | succ n ih =>
    have ih := ih j (by omega)
    obtain ⟨q, hq⟩ := reflectDocUpTo_dvd v w n (by omega)
    have hk : w - n = (w - 1 - n) + 1 := by omega
    unfold reflectDocUpTo
    by_cases hv : v.testBit n = true
    · rw [if_pos hv]
      have hsum : (reflectDocUpTo v w n + 2 ^ (w - 1 - n)).testBit j =
          if j < w - n then (2 ^ (w - 1 - n)).testBit j else q.testBit (j - (w - n)) := by
        rw [hq]
        exact Nat.testBit_two_pow_mul_add q (by rw [hk]; exact Nat.pow_lt_pow_right (by omega) (by omega)) j
      rw [hsum]
      by_cases hj : j < w - n
      · rw [if_pos hj, Nat.testBit_two_pow]
        by_cases hj' : w - 1 - n = j
        · have h1 : w - 1 - j = n := by omega
          have h2 : w - (n + 1) ≤ j ∧ j < w := by omega
          simp [hj', h1, h2, hv]
        · have h2 : ¬ (w - (n + 1) ≤ j ∧ j < w) := by omega
          rw [decide_eq_false hj', decide_eq_false h2, Bool.false_and]
      · rw [if_neg hj]
        have : q.testBit (j - (w - n)) = (reflectDocUpTo v w n).testBit j := by
          rw [hq, Nat.testBit_two_pow_mul, decide_eq_true (show w - n ≤ j by omega), Bool.true_and]
        rw [this, ih]
        congr 1
        exact decide_eq_decide.mpr (by omega)
    · rw [if_neg hv, Nat.add_zero, ih]
      by_cases hj : j = w - (n + 1)
      · have h1 : w - 1 - j = n := by omega
        simp [h1, hv]
      · congr 1
        exact decide_eq_decide.mpr (by omega)

end Sys2Proof.Machine
end

