-- ==== Sys2Proof/Tests/Slice0.lean ====
section
/-! SUPPORT. Tests/Slice0.lean: the model's own tests and the witnesses of its statements' hypotheses.
Expected values come from spec/95_test_vectors.md (the row is named in each comment) or are written out from the encodings of
spec/30_encoding.md; none comes from the model. -/

namespace Sys2Proof.Tests

open Sys2Proof.Machine

/-! ## Helpers -/

/-- The next state, where there is one. -/
def after (o : Host.Outcome State Fault Refusal) : Option State :=
  match o with
  | .next t => some t
  | .fault _ => none
  | .refused _ => none

/-- An idle state with a given CTRL. -/
def withCtrl (ctrl : Word) : State := { State.reset with ctrl := ctrl }

/-- The configuration of vector S7 (W 8, POLY 0x07, range [0,1), image(0) = 0x01), idle. -/
def s7 : State := { withCtrl 0x00010008#32 with poly := 0x07#32, endAddr := 1#32, image := [(0, 0x01#8)] }

/-- S7 after COMPUTE's acceptance (trace T1, first row), with the previous RESULT 0x55. -/
def s7Absorb : State := { s7 with status := 0x01#32, phase := .absorb, result := 0x55#32 }

/-- S7 before the first SHIFT (trace T1). -/
def s7Shift : State := { s7Absorb with phase := .shift, acc := 0x01#32, left := 8#4 }

/-- S7 before the eighth SHIFT (trace T1). -/
def s7LastShift : State := { s7Absorb with phase := .shift, acc := 0x80#32, left := 1#4 }

/-- S7 before FINAL (trace T1). -/
def s7Final : State := { s7Absorb with phase := .final, acc := 0x07#32, cur := 1#32 }

/-- S7 with no byte at address 0: a stuck state. -/
def s7Stuck : State := { s7Absorb with image := [] }

/-! ## Well-formedness -/

/-- R81: "DATA must be 0 in a read". -/
theorem test_wellFormed_refuses_read_data : (Instr.regRead 3#4 1#32).wellFormed = false := by decide

theorem test_wellFormed_accepts_read : (Instr.regRead 15#4 0#32).wellFormed = true := by decide

/-! ## Decoding: a word of every constructor, from R81, R85 and the encodings of programs P1 to P3 -/

/-- R81 bit by bit: WE = 1, IDX = 1000, DATA = 0x12345678 (program P3 line 8). -/
theorem test_decode_regWrite_bits :
    decode (.hosttx 0b1100000010010001101000101011001111000#37) = .regWrite 8#4 0x12345678#32 := by decide

/-- Program P1 line 1. -/
theorem test_decode_regWrite : decode (.hosttx 0x1000010008#37) = .regWrite 0#4 0x00010008#32 := by decide

/-- R81 bit by bit: WE = 0, IDX = 0111 (program P1 line 8). -/
theorem test_decode_regRead_bits :
    decode (.hosttx 0b0011100000000000000000000000000000000#37) = .regRead 7#4 0#32 := by decide

theorem test_decode_nop : decode (.cmd 0b00000000000000000000000100000000#32) = .nop 1#24 := by decide
theorem test_decode_compute : decode (.cmd 0b00000000000000000000000100000001#32) = .compute 1#24 := by decide
theorem test_decode_validate : decode (.cmd 0b10000000000000000000000000000010#32) = .validate 0x800000#24 := by decide
theorem test_decode_reflect : decode (.cmd 0b00000000000000000000000000000011#32) = .reflect 0#24 := by decide
theorem test_decode_illegal04 : decode (.cmd 0b00000000000000000000000000000110#32) = .illegal04 0b10#2 0#24 := by decide
theorem test_decode_illegal08 : decode (.cmd 0b00000000000000000000000000001001#32) = .illegal08 0b001#3 0#24 := by decide
theorem test_decode_illegal10 : decode (.cmd 0b00000000000000000000000000011000#32) = .illegal10 0b1000#4 0#24 := by decide
theorem test_decode_illegal20 : decode (.cmd 0b00000000000000000000000000100001#32) = .illegal20 0b00001#5 0#24 := by decide
theorem test_decode_illegal40 : decode (.cmd 0b00000000000000000000000001111111#32) = .illegal40 0b111111#6 0#24 := by decide
theorem test_decode_illegal80 : decode (.cmd 0b00000000000000000000000110000001#32) = .illegal80 0b0000001#7 1#24 := by decide

/-- The table's numbering: five bytes of HOSTTX, four or one of CMD. -/
theorem test_decodeTableWord :
    decodeTableWord 40 0x1500000001 = some (.regWrite 5#4 1#32) ∧ decodeTableWord 32 0x101 = some (.compute 1#24) ∧
      decodeTableWord 8 0xFF = some (.illegal80 0x7F#7 0#24) := by decide

/-- R81: bits 39:37 are 0. -/
theorem test_decode_rejects_bit37 : hostWordOfBits 40 0x2000000000 = .error .reservedBits39to37 := by rfl
theorem test_decode_rejects_long : hostWordOfBits 48 0 = .error .badLength := by rfl
theorem test_decode_rejects_empty : decodeBytes [] = .error .badLength := by rfl

/-- Program P1 line 1 as five bytes, the least significant first. -/
theorem test_decodeBytes : decodeBytes [0x08#8, 0x00#8, 0x01#8, 0x00#8, 0x10#8] = .ok (.regWrite 0#4 0x00010008#32) := by rfl

/-- Program P1's encodings, lines 1 to 8. -/
theorem test_script_P1 :
    encodeScript [.config 8#8 false false false false 1#8, .wr 1#4 0x07#32, .wr 2#4 0#32, .wr 3#4 0#32, .wr 4#4 1#32,
      .cmdCompute, .poll, .expect 7#4 0x07#32] =
    [0x1000010008#37, 0x1100000007#37, 0x1200000000#37, 0x1300000000#37, 0x1400000001#37,
      0x1500000001#37, 0x0600000000#37, 0x0700000000#37] := by decide

/-- R21's table: RESULT at 0x1C, REFL_OUT at 0x28. -/
theorem test_busOffset : busOffset 7#4 = 0x1C ∧ busOffset 10#4 = 0x28 := by decide

/-! ## One step of each instruction -/

/-- H1: `RD CTRL` and `RD POLY` at reset. -/
theorem test_read_reset :
    (after (exec (.regRead 0#4 0#32) State.reset)).map (·.rdata) = some 0x00010020#32 ∧
      (after (exec (.regRead 1#4 0#32) State.reset)).map (·.rdata) = some 0x04C11DB7#32 := by decide

/-- H13: `RD RESULT` while BUSY gives the previous RESULT. -/
theorem test_read_result_busy : (after (exec (.regRead 7#4 0#32) s7Shift)).map (·.rdata) = some 0x55#32 := by decide

/-- H3, H5: CTRL's write mask, and STATUS is read-only. -/
theorem test_write_masks :
    (after (exec (.regWrite 0#4 0xFFFFFFFF#32) State.reset)).map (·.ctrl) = some 0x00FF0FFF#32 ∧
      (after (exec (.regWrite 6#4 0#32) { State.reset with status := 0x12#32 })).map (·.status) = some 0x12#32 := by decide

/-- H10, H12: `WR CMD, 0x101` is COMPUTE; `WR CMD, 3` while BUSY is ignored. -/
theorem test_write_cmd :
    (after (exec (.regWrite 5#4 0x101#32) s7)).map (·.status) = some 0x01#32 ∧
      after (exec (.regWrite 5#4 3#32) s7Shift) = some s7Shift := by decide

/-- H7: NOP leaves STATUS 0x12. -/
theorem test_nop : after (exec (.nop 0#24) { State.reset with status := 0x12#32 }) = some { State.reset with status := 0x12#32 } := by
  decide

/-- T1, first row. -/
theorem test_compute_accepted : after (exec (.compute 0#24) { s7 with result := 0x55#32 }) = some s7Absorb := by decide

/-- E40, S4: W = 12 gives STATUS 0x12 and RESULT 0. -/
theorem test_compute_bad_width :
    after (exec (.compute 0#24) { withCtrl 0x0001000C#32 with result := 0x55#32 }) =
      some { withCtrl 0x0001000C#32 with status := 0x12#32 } := by decide

/-- V3 (S5) and V6: length 3 with word size 2; a bad width is reported before a word size of 0. -/
theorem test_validate_errors :
    (after (exec (.validate 0#24) { withCtrl 0x00020008#32 with endAddr := 3#32 })).map (·.status) = some 0x22#32 ∧
      (after (exec (.validate 0#24) { withCtrl 0x00000000#32 with endAddr := 3#32 })).map (·.status) = some 0x12#32 := by decide

/-- V8: START > END with a difference of -3, word size 3. -/
theorem test_validate_negative_length :
    (after (exec (.validate 0#24) { withCtrl 0x00030010#32 with startAddr := 5#32, endAddr := 2#32 })).map (·.status) =
      some 0x02#32 := by decide

/-- F4. -/
theorem test_reflect_32 :
    (after (exec (.reflect 0#24) { State.reset with reflIn := 0x12345678#32, reflWidth := 32#32 })).map (·.reflOut) =
      some 0x1E6A2C48#32 := by decide

/-- F11: a width of 33. -/
theorem test_reflect_33 :
    (after (exec (.reflect 0#24) { State.reset with reflIn := 0x80000000#32, reflWidth := 33#32 })).map (·.reflOut) =
      some 0x00000002#32 := by decide

/-- H9: an illegal command reports 3 and keeps RESULT. -/
theorem test_illegal :
    after (exec (.illegal04 0#2 0#24) { State.reset with result := 7#32 }) =
      some { State.reset with result := 7#32, status := 0x32#32 } ∧
    after (exec (.illegal80 0x7F#7 1#24) { State.reset with result := 7#32 }) =
      some { State.reset with result := 7#32, status := 0x32#32 } := by decide

theorem test_illegal_middle_rows :
    (after (exec (.illegal08 0#3 0#24) State.reset)).map (·.status) = some 0x32#32 ∧
      (after (exec (.illegal10 0#4 0#24) State.reset)).map (·.status) = some 0x32#32 ∧
      (after (exec (.illegal20 0#5 0#24) State.reset)).map (·.status) = some 0x32#32 ∧
      (after (exec (.illegal40 0#6 0#24) State.reset)).map (·.status) = some 0x32#32 := by decide

/-! ## One step of the engine and of reset -/

/-- T1: the ABSORB row. -/
theorem test_absorb : after (step s7Absorb) = some s7Shift := by decide

/-- S8: REFIN places 0x80 as 0x01. -/
theorem test_absorb_refin :
    (after (step { s7Absorb with ctrl := 0x00010108#32, image := [(0, 0x80#8)] })).map (·.acc) = some 0x01#32 := by decide

/-- T1: SHIFT 8. -/
theorem test_last_shift : after (step s7LastShift) = some s7Final := by decide

/-- T1: FINAL. -/
theorem test_final :
    after (step s7Final) = some { s7Final with result := 0x07#32, status := 0x02#32, phase := .idle } := by decide

/-- E9: apply mode reflects 0x07 to 0xE0. -/
theorem test_final_apply : (after (step { s7Final with ctrl := 0x00010A08#32 })).map (·.result) = some 0xE0#32 := by decide

/-- Z2: reset while BUSY. -/
theorem test_reset_busy :
    after (step { s7Shift with turns := [.reset] }) = some { State.reset with image := [(0, 0x01#8)] } := by decide

/-! ## The datapath and the document's algorithm -/

/-- T2 (E6) in both forms. -/
theorem test_two_bytes :
    crcHW [0x01#8, 0x02#8] s7.crcConfig = 0x1B#32 ∧ crcRef [0x01#8, 0x02#8] s7.crcConfig = .ok 0x1B := by
  constructor
  · decide
  · rfl

/-- E19: the empty range in apply mode. -/
theorem test_empty_apply : crcHW [] ⟨16, 0x1021#32, 0x1234#32, false, true, false, true⟩ = 0x2C48#32 := by decide

/-- E32 and E33, W = 32. -/
theorem test_crc32 :
    crcHW [0x80#8] ⟨32, 0x04C11DB7#32, 0#32, false, false, false, false⟩ = 0x690CE0EE#32 ∧
      crcHW [0x00#8] ⟨32, 0x04C11DB7#32, 0xFFFFFFFF#32, false, false, false, false⟩ = 0x4E08BFB4#32 := by decide

/-- The image keeps its canonical form, and unbacking an address removes its entry. -/
theorem test_memory :
    Memory.put (Memory.put [] 5#32 1#8) 3#32 2#8 = [(3, 2#8), (5, 1#8)] ∧ Memory.unback [(3, 2#8), (5, 1#8)] 3#32 = [(5, 1#8)] ∧
      Memory.wf [(3, 2#8), (5, 1#8)] = true ∧ Memory.wf [(5, 1#8), (5, 1#8)] = false := by decide

/-! ## Witnesses: a concrete state and operands for the hypotheses of each statement -/

/-- A host's register read as a turn. -/
def readTurn (idx : BitVec 4) : Turn := .host (.hosttx (packTx 0#1 idx 0#32))

/-- A host's register write as a turn. -/
def writeTurn (idx : BitVec 4) (data : Word) : Turn := .host (.hosttx (packTx 1#1 idx data))

/-- A command word as a turn. -/
def cmdTurn (c : Word) : Turn := .host (.cmd c)

/-- A state with W = 16 in SHIFT, two shifts left. -/
def shift16 : State := { s7Shift with ctrl := 0x00010010#32, acc := 0xFFFF#32, left := 2#4 }

theorem inv_reset : Inv State.reset := by constructor <;> decide
theorem inv_s7 : Inv s7 := by constructor <;> decide
theorem inv_s7Absorb : Inv s7Absorb := by constructor <;> decide
theorem inv_s7Shift : Inv s7Shift := by constructor <;> decide
theorem inv_s7LastShift : Inv s7LastShift := by constructor <;> decide
theorem inv_s7Final : Inv s7Final := by constructor <;> decide

/-- A row of the table holds a word: the first and the last row. -/
theorem witness_EveryWordHasOneTableRow :
    (∃ r, opcodeTable[0]? = some r ∧ r.holds (.hosttx 0#37) = true) ∧
    (∃ r, opcodeTable[11]? = some r ∧ r.holds (.cmd 0xFFFFFFFF#32) = true) :=
  ⟨⟨_, rfl, by decide⟩, ⟨_, rfl, by decide⟩⟩

theorem witness_SampleWordsDecode : 2 ^ 37 ≤ 0x2000000000 := by decide

theorem witness_CommandHighBitsIgnored : (0x101#32).toNat % 256 = (0xFFFFFF01#32).toNat % 256 := by decide

theorem witness_ScriptLinesDecode : State.reset.busy = false := by decide

theorem witness_StepRunsDecodedInstruction :
    ({ s7 with turns := [cmdTurn 1#32, .engine] } : State).turns = .host (.cmd 1#32) :: [.engine] ∧
    decode (.cmd 1#32) = .compute 0#24 ∧
    decodeTableWord 8 0x80 = some (.illegal80 0#7 0#24) ∧
    decodeTableWord 40 0x1FFFFFFFFF = some (.regWrite 15#4 0xFFFFFFFF#32) := by decide

theorem witness_ResetStepRestoresReset : ({ s7Stuck with turns := [.reset, .engine] } : State).turns = .reset :: [.engine] := rfl

/-- Every clause of RegWriteStores: the written indices, and the read-only and unmapped ones at their boundaries. -/
theorem witness_RegWriteStores :
    State.reset.busy = false ∧ (∀ idx ∈ [0#4, 1#4, 2#4, 3#4, 4#4, 6#4, 7#4, 8#4, 9#4, 10#4, 11#4, 15#4], idx ≠ 5#4) := by decide

theorem witness_WritesWhileBusyHaveNoEffect :
    s7Absorb.busy = true ∧
    (∃ t, step s7Absorb = .next t ∧ t.busy = true) ∧ currentTurn s7Absorb ≠ .reset ∧
    (∃ t, step s7Final = .next t ∧ t.busy = false) ∧ s7Final.busy = true ∧ currentTurn s7Final ≠ .reset :=
  ⟨by decide, ⟨_, rfl, by decide⟩, by decide, ⟨_, rfl, by decide⟩, by decide, by decide⟩

theorem witness_UnmappedIndicesInert : 11 ≤ (11#4).toNat ∧ 11 ≤ (15#4).toNat := by decide

theorem witness_WriteVisibleToNextRead :
    State.reset.busy = false ∧ (9#4 = 0#4 ∨ 9#4 = 1#4 ∨ 9#4 = 2#4 ∨ 9#4 = 3#4 ∨ 9#4 = 4#4 ∨ 9#4 = 8#4 ∨ 9#4 = 9#4) ∧
    (0#4 = 0#4 ∨ 0#4 = 1#4 ∨ 0#4 = 2#4 ∨ 0#4 = 3#4 ∨ 0#4 = 4#4 ∨ 0#4 = 8#4 ∨ 0#4 = 9#4) := by decide

theorem witness_NopChangesNothing : (0xFFFFFF00#32).toNat % 256 = 0 := by decide

theorem witness_IllegalCommandReportsThree :
    s7.busy = false ∧ s7.status ∈ statusValues ∧ 4 ≤ (0x104#32).toNat % 256 ∧ 4 ≤ (0xFF#32).toNat % 256 := by decide

/-- The three clauses of ValidatorDecides: widths beside the legal ones, a word size of 0, and word sizes 1 and 255. -/
theorem witness_ValidatorDecides :
    (∀ w ∈ [0#8, 7#8, 9#8, 15#8, 17#8, 31#8, 33#8, 255#8], ¬ (w = 8#8 ∨ w = 16#8 ∨ w = 32#8)) ∧
    (8#8 = 8#8 ∨ 8#8 = 16#8 ∨ 8#8 = 32#8) ∧ 0#8 = 0#8 ∧ (32#8 = 8#8 ∨ 32#8 = 16#8 ∨ 32#8 = 32#8) ∧ 1#8 ≠ 0#8 ∧ 255#8 ≠ 0#8 := by
  decide

theorem witness_ValidateReportsVerdict : s7.busy = false ∧ s7.status ∈ statusValues := by decide

theorem witness_ComputeNeverMisaligned :
    s7.busy = false ∧ (∃ t, exec (.compute 0#24) s7 = .next t ∧ t.err = 0#4) ∧
    (∃ t, exec (.compute 0#24) (withCtrl 0x0001000C#32) = .next t ∧ t.err = 1#4) ∧
    Accepts { withCtrl 0x00020008#32 with endAddr := 3#32, turns := [cmdTurn 2#32] } 2#8 ∧ 2#8 ≠ 0#8 ∧
    (∃ t, step { withCtrl 0x00020008#32 with endAddr := 3#32, turns := [cmdTurn 2#32] } = .next t ∧ t.err = 2#4) :=
  ⟨by decide, ⟨_, rfl, by decide⟩, ⟨_, rfl, by decide⟩, ⟨by decide, _, rfl, rfl⟩, by decide, ⟨_, rfl, by decide⟩⟩

theorem witness_ReflectorIsTheDocuments : 0 ≤ 32 ∧ 32 ≤ 32 ∧ 255 ≤ 255 ∧ 31 < 32 := by decide

theorem witness_ReflectorLaws : 8 ≤ 32 ∧ (0xFF#32).toNat < 2 ^ 8 ∧ 32 ≤ 32 ∧ (0xFFFFFFFF#32).toNat < 2 ^ 32 := by decide

theorem witness_ReflectWritesReflOut :
    ({ s7 with reflIn := 1#32, reflWidth := 255#32 } : State).busy = false ∧
    ({ s7 with reflIn := 1#32, reflWidth := 255#32 } : State).status ∈ statusValues := by decide

theorem witness_ComputeRejectsIllegalWidth :
    (withCtrl 0x0001000C#32).busy = false ∧ (withCtrl 0x0001000C#32).status ∈ statusValues ∧
    ¬ ((withCtrl 0x0001000C#32).ctrl.toNat % 256 = 8 ∨ (withCtrl 0x0001000C#32).ctrl.toNat % 256 = 16 ∨
      (withCtrl 0x0001000C#32).ctrl.toNat % 256 = 32) := by decide

theorem witness_ComputeStartsEngine :
    s7.busy = false ∧ s7.status ∈ statusValues ∧ s7.ctrl.toNat % 256 = 8 ∧
    (withCtrl 0x00010010#32).ctrl.toNat % 256 = 16 ∧ State.reset.ctrl.toNat % 256 = 32 := by decide

theorem witness_AbsorbStepPlacesByte :
    EngineMoves s7Absorb [] ∧ s7Absorb.phase = .absorb ∧ s7Absorb.ctrl.toNat % 256 = 8 ∧
    Memory.read s7Absorb.image s7Absorb.cur = some 0x01#8 := ⟨.inr ⟨rfl, rfl⟩, by decide, by decide, by decide⟩

/-- Both clauses of ShiftStepDivides: one shift left, and more than one. -/
theorem witness_ShiftStepDivides :
    EngineMoves s7LastShift [] ∧ s7LastShift.phase = .shift ∧ s7LastShift.ctrl.toNat % 256 = 8 ∧ s7LastShift.left = 1#4 ∧
    EngineMoves shift16 [] ∧ shift16.phase = .shift ∧ shift16.ctrl.toNat % 256 = 16 ∧ shift16.left ≠ 1#4 :=
  ⟨.inr ⟨rfl, rfl⟩, by decide, by decide, by decide, .inr ⟨rfl, rfl⟩, by decide, by decide, by decide⟩

theorem witness_FinalStepCompletes :
    EngineMoves { s7Final with turns := [.engine, readTurn 6#4] } [readTurn 6#4] ∧
    s7Final.phase = .final ∧ s7Final.status ∈ statusValues ∧ s7Final.ctrl.toNat % 256 = 8 :=
  ⟨.inl rfl, by decide, by decide, by decide⟩

theorem witness_IdleEngineHasNoStep : EngineMoves { s7 with turns := [.engine] } [] ∧ s7.phase = .idle :=
  ⟨.inl rfl, by decide⟩

/-- Both clauses of StuckUntilReset. -/
theorem witness_StuckUntilReset :
    Stuck s7Stuck ∧ currentTurn s7Stuck ≠ .reset ∧
    Stuck { s7Stuck with turns := [.reset] } ∧ currentTurn { s7Stuck with turns := [.reset] } = .reset := by
  refine ⟨⟨?_, ?_, ?_⟩, ?_, ⟨?_, ?_, ?_⟩, ?_⟩ <;> decide

theorem witness_CursorNeverWraps : Inv s7LastShift ∧ ∃ t, step s7LastShift = .next t ∧ t.cur = 1#32 :=
  ⟨inv_s7LastShift, ⟨_, rfl, by decide⟩⟩

theorem witness_DatapathMatchesReference :
    s7.crcConfig.width = 8 ∧ (withCtrl 0x00010010#32).crcConfig.width = 16 ∧ State.reset.crcConfig.width = 32 := by decide

/-- A COMPUTE over one byte, with a host read and a write among the ten engine turns. -/
def tenTurns : List Turn :=
  [.engine, readTurn 7#4, .engine, .engine, .engine, .engine, writeTurn 2#4 5#32, .engine, .engine, .engine, .engine, .engine]

theorem witness_ComputeRunGivesReference :
    s7.busy = false ∧ s7.status ∈ statusValues ∧ legalWidth s7.regWidth = true ∧ s7.rangeBytes = some [0x01#8] ∧
    (∃ s0, exec (.compute 0#24) s7 = .next s0) ∧
    noReset tenTurns = true ∧ engineTurns tenTurns = computeSteps 1 ∧ tenTurns.getLast? = some .engine :=
  ⟨by decide, by decide, by decide, by decide, ⟨_, rfl⟩, by decide, by decide, by decide⟩

theorem witness_ComputeStillRunningBefore :
    s7.busy = false ∧ s7.status ∈ statusValues ∧ legalWidth s7.regWidth = true ∧ s7.rangeBytes = some [0x01#8] ∧
    (∃ s0, exec (.compute 0#24) s7 = .next s0) ∧
    noReset tenTurns.dropLast = true ∧ engineTurns tenTurns.dropLast < computeSteps 1 :=
  ⟨by decide, by decide, by decide, by decide, ⟨_, rfl⟩, by decide, by decide⟩

/-- An empty range with W = 8 (vector E16), idle. -/
def e16 : State := { s7 with endAddr := 0#32, seed := 0x5A#32 }

/-- E16 after COMPUTE's acceptance. -/
def e16Final : State := { e16 with status := 0x01#32, phase := .final, acc := 0x5A#32 }

/-- E16 completed. -/
def e16Done : State := { e16 with status := 0x02#32, acc := 0x5A#32, result := 0x5A#32 }

theorem e16_completes : CompletesUnder e16Final [.engine] e16Done := by
  refine ⟨rfl, by decide, ?_⟩
  intro k u hk hu
  obtain rfl : k = 0 := Nat.lt_one_iff.mp hk
  cases hu
  decide

theorem e16_completes_after_read : CompletesUnder e16Final [readTurn 7#4, .engine] e16Done := by
  refine ⟨rfl, by decide, ?_⟩
  intro k u hk hu
  match k, hk with
  | 0, _ => cases hu; decide
  | 1, _ => cases hu; decide

/-- Two runs of one COMPUTE: the engine alone, and the engine after a host read. -/
theorem witness_EqualInputsEqualResults :
    Inv e16 ∧ e16.busy = false ∧ exec (.compute 0#24) e16 = .next e16Final ∧ exec (.compute 1#24) e16 = .next e16Final ∧
    noReset [.engine] = true ∧ noReset [readTurn 7#4, .engine] = true ∧
    CompletesUnder e16Final [.engine] e16Done ∧ CompletesUnder e16Final [readTurn 7#4, .engine] e16Done :=
  ⟨by constructor <;> decide, by decide, rfl, rfl, by decide, by decide, e16_completes, e16_completes_after_read⟩

/-- A failing COMPUTE (E41), which completes at once, with no turn to take. -/
theorem witness_EqualInputsEqualResults_failing :
    Inv (withCtrl 0#32) ∧ (withCtrl 0#32).busy = false ∧
    exec (.compute 0#24) (withCtrl 0#32) = .next { withCtrl 0#32 with status := 0x12#32 } ∧ noReset [] = true ∧
    CompletesUnder { withCtrl 0#32 with status := 0x12#32 } [] { withCtrl 0#32 with status := 0x12#32 } :=
  ⟨by constructor <;> decide, by decide, rfl, by decide, rfl, by decide, fun _ _ hk _ => absurd hk (Nat.not_lt_zero _)⟩

theorem witness_ResultBelowWidth :
    EngineMoves s7Final [] ∧ s7Final.phase = .final ∧ legalWidth s7Final.regWidth = true ∧ (∃ t, step s7Final = .next t) ∧
    s7.crcConfig.width = 8 ∧
    (withCtrl 0#32).busy = false ∧ legalWidth (withCtrl 0#32).regWidth = false ∧
    (∃ t, exec (.compute 0#24) (withCtrl 0#32) = .next t) :=
  ⟨.inr ⟨rfl, rfl⟩, by decide, by decide, ⟨_, rfl⟩, by decide, by decide, by decide, ⟨_, rfl⟩⟩

theorem witness_FinalXorComplements : State.reset.crcConfig.width = 32 := by decide

/-- E12: POLY 0x107 and 0x07 agree in their low 8 bits. -/
theorem witness_OnlyLowBitsMatter :
    s7.crcConfig.width = 8 ∧ (0x107#32).toNat % 2 ^ 8 = s7.crcConfig.polynomial.toNat % 2 ^ 8 ∧
    (0x100#32).toNat % 2 ^ 8 = s7.crcConfig.seed.toNat % 2 ^ 8 := by decide

theorem witness_LiteralModeIgnoresRefout : s7.crcConfig.applyMode = false ∧ s7.crcConfig.refout = false := by decide

theorem witness_StepKeepsInv : Inv s7Shift ∧ ∃ t, step s7Shift = .next t := ⟨inv_s7Shift, ⟨_, rfl⟩⟩

theorem witness_ImageNeverWritten : ∃ t, step s7Absorb = .next t := ⟨_, rfl⟩

/-- Another image that gives the byte of [0, 1): it also gives one at address 1, outside the range. -/
theorem witness_OnlyRangeBytesMatter :
    Inv s7Absorb ∧ (∃ t, step s7Absorb = .next t) ∧
    (∀ a : Word, s7Absorb.startAddr.toNat ≤ a.toNat → a.toNat < s7Absorb.endAddr.toNat →
      Memory.read [(0, 0x01#8), (1, 0xFF#8)] a = Memory.read s7Absorb.image a) := by
  refine ⟨inv_s7Absorb, ⟨_, rfl⟩, ?_⟩
  intro a _ ha
  have h : a = 0#32 := BitVec.eq_of_toNat_eq (Nat.lt_one_iff.mp ha)
  subst h
  decide

/-- RESULT changes: by a reset, by FINAL, and by a failing COMPUTE. -/
theorem witness_ResultWriters :
    (∃ t, step { s7Shift with turns := [.reset] } = .next t ∧ t.result ≠ 0x55#32) ∧
    (∃ t, step s7Final = .next t ∧ t.result ≠ 0x55#32) ∧
    (∃ t, step { withCtrl 0#32 with result := 0x55#32, turns := [cmdTurn 1#32] } = .next t ∧ t.result ≠ 0x55#32) :=
  ⟨⟨_, rfl, by decide⟩, ⟨_, rfl, by decide⟩, ⟨_, rfl, by decide⟩⟩

theorem witness_ReflOutWriters :
    ∃ t, step { State.reset with reflIn := 1#32, reflWidth := 8#32, turns := [cmdTurn 3#32] } = .next t ∧ t.reflOut ≠ 0#32 :=
  ⟨_, rfl, by decide⟩

/-- The clauses of BusyChanges: an accepted COMPUTE, FINAL and a reset. -/
theorem witness_BusyChanges :
    (Inv { s7 with turns := [cmdTurn 1#32] } ∧ Accepts { s7 with turns := [cmdTurn 1#32] } 1#8 ∧ legalWidth s7.regWidth = true ∧
      ∃ t, step { s7 with turns := [cmdTurn 1#32] } = .next t ∧ t.busy = true) ∧
    (Inv s7Final ∧ currentTurn s7Final = .engine ∧ s7Final.phase = .final ∧ ∃ t, step s7Final = .next t ∧ t.busy = false) ∧
    (Inv { s7Shift with turns := [.reset] } ∧ currentTurn { s7Shift with turns := [.reset] } = .reset ∧
      ∃ t, step { s7Shift with turns := [.reset] } = .next t ∧ t.busy = false) :=
  ⟨⟨by constructor <;> decide, ⟨by decide, _, rfl, rfl⟩, by decide, ⟨_, rfl, by decide⟩⟩,
    ⟨inv_s7Final, rfl, rfl, ⟨_, rfl, by decide⟩⟩,
    ⟨by constructor <;> decide, rfl, ⟨_, rfl, by decide⟩⟩⟩

/-- The clauses of DoneChanges that BusyChanges does not share: another command, in the HOSTTX spelling. -/
theorem witness_DoneChanges :
    Inv { s7 with turns := [writeTurn 5#4 0xFF#32] } ∧ Accepts { s7 with turns := [writeTurn 5#4 0xFF#32] } 0xFF#8 ∧
      0xFF#8 ≠ 0#8 ∧ ¬ (0xFF#8 = 1#8 ∧ legalWidth s7.regWidth = true) ∧
      ∃ t, step { s7 with turns := [writeTurn 5#4 0xFF#32] } = .next t ∧ t.done ≠ s7.done :=
  ⟨by constructor <;> decide, ⟨by decide, _, rfl, by decide⟩, by decide, by decide, ⟨_, rfl, by decide⟩⟩

/-- Each configuration register changes by a write to its index. -/
theorem witness_ConfigurationWriters :
    (∃ t, step { s7 with turns := [writeTurn 0#4 0#32] } = .next t ∧ t.ctrl ≠ s7.ctrl) ∧
    (∃ t, step { s7 with turns := [writeTurn 1#4 0#32] } = .next t ∧ t.poly ≠ s7.poly) ∧
    (∃ t, step { s7 with turns := [writeTurn 2#4 1#32] } = .next t ∧ t.seed ≠ s7.seed) ∧
    (∃ t, step { s7 with turns := [writeTurn 3#4 1#32] } = .next t ∧ t.startAddr ≠ s7.startAddr) ∧
    (∃ t, step { s7 with turns := [writeTurn 4#4 0#32] } = .next t ∧ t.endAddr ≠ s7.endAddr) ∧
    (∃ t, step { s7 with turns := [writeTurn 8#4 1#32] } = .next t ∧ t.reflIn ≠ s7.reflIn) ∧
    (∃ t, step { s7 with turns := [writeTurn 9#4 1#32] } = .next t ∧ t.reflWidth ≠ s7.reflWidth) ∧
    currentTurn { s7 with turns := [writeTurn 9#4 1#32] } ≠ .reset :=
  ⟨⟨_, rfl, by decide⟩, ⟨_, rfl, by decide⟩, ⟨_, rfl, by decide⟩, ⟨_, rfl, by decide⟩, ⟨_, rfl, by decide⟩,
    ⟨_, rfl, by decide⟩, ⟨_, rfl, by decide⟩, by decide⟩

/-- Errors of COMPUTE and of an illegal command. -/
theorem witness_ErrorsHaveNoOtherEffect :
    (Inv { withCtrl 0#32 with turns := [cmdTurn 1#32] } ∧ Accepts { withCtrl 0#32 with turns := [cmdTurn 1#32] } 1#8 ∧
      ∃ t, step { withCtrl 0#32 with turns := [cmdTurn 1#32] } = .next t ∧ t.err ≠ 0#4) ∧
    (Inv { s7 with turns := [cmdTurn 4#32] } ∧ Accepts { s7 with turns := [cmdTurn 4#32] } 4#8 ∧ 4#8 ≠ 0#8 ∧
      ∃ t, step { s7 with turns := [cmdTurn 4#32] } = .next t ∧ t.err ≠ 0#4) :=
  ⟨⟨by constructor <;> decide, ⟨by decide, _, rfl, rfl⟩, ⟨_, rfl, by decide⟩⟩,
    ⟨by constructor <;> decide, ⟨by decide, _, rfl, rfl⟩, by decide, ⟨_, rfl, by decide⟩⟩⟩

theorem witness_IdleHiddenStateUnobservable :
    Inv s7 ∧ Inv { s7 with acc := 7#32, cur := 1#32, left := 3#4 } ∧ s7.phase = .idle ∧
    SameButHidden s7 { s7 with acc := 7#32, cur := 1#32, left := 3#4 } :=
  ⟨inv_s7, by constructor <;> decide, rfl, rfl⟩

/-- A cycle in which the host reads RESULT and the image answers. -/
def busyCycle : PortIn := ⟨false, true, false, 7#4, 0#32, true, 0x01#8⟩

/-- The steps of a clock edge by R82's signals: the branches of the list in ClockEdgeRefinesSteps, each at a state that meets
the other premises: a read beside an acknowledged ABSORB; the same cycle without `m_ack`; no transaction beside a SHIFT; a
write while idle; and a reset. -/
theorem witness_ClockEdgeRefinesSteps :
    (Inv s7Absorb ∧ busyCycle.honest s7Absorb ∧ busyCycle.rst = false ∧ busyCycle.hReq = true ∧ busyCycle.hWe = false ∧
      s7Absorb.busy = true ∧ busyCycle.mAck = true) ∧
    (({ busyCycle with mAck := false } : PortIn).honest s7Absorb ∧ s7Absorb.phase = .absorb) ∧
    (Inv s7Shift ∧ ({ busyCycle with hReq := false } : PortIn).honest s7Shift ∧ s7Shift.busy = true ∧ s7Shift.phase ≠ .absorb) ∧
    (Inv s7 ∧ ({ busyCycle with hWe := true, hIdx := 2#4, hWdata := 5#32 } : PortIn).honest s7 ∧ s7.busy = false) ∧
    (({ busyCycle with rst := true } : PortIn).honest s7Absorb ∧ ({ busyCycle with rst := true } : PortIn).rst = true) :=
  ⟨⟨inv_s7Absorb, fun _ _ => by decide, rfl, rfl, rfl, by decide, rfl⟩, ⟨(fun h => by cases h), rfl⟩,
    ⟨inv_s7Shift, (fun _ h => by cases h), by decide, by decide⟩, ⟨inv_s7, (fun _ h => by cases h), by decide⟩,
    ⟨fun _ _ => by decide, rfl⟩⟩

/-- R82, R249: the write's `h_wdata` reaches SEED; a SHIFT takes its cycle without a transaction (T1, SHIFT 1); an ABSORB
without `m_ack` waits. -/
theorem test_clockEdge :
    (after (clockEdge { busyCycle with hWe := true, hIdx := 2#4, hWdata := 5#32 } s7)).map (·.seed) = some 5#32 ∧
      (after (clockEdge { busyCycle with hReq := false } s7Shift)).map (·.acc) = some 0x02#32 ∧
      after (clockEdge { busyCycle with hReq := false, mAck := false } s7Absorb) = some s7Absorb := by decide

theorem witness_ImageRequestHeld :
    Inv s7Absorb ∧ (portOutputs { busyCycle with mAck := false } s7Absorb).mReq = true ∧
    ∃ t, clockEdge { busyCycle with mAck := false } s7Absorb = .next t :=
  ⟨inv_s7Absorb, by decide, ⟨_, rfl⟩⟩

/-- Two blocks over one image; block 1 is busy. -/
theorem witness_BlocksDoNotInterfere : Platform.wf [(0, 0x01#8)] ⟨[s7, s7Shift]⟩ := by
  refine ⟨by decide, ?_⟩
  intro s hs
  simp only [List.mem_cons, List.not_mem_nil, or_false] at hs
  rcases hs with rfl | rfl <;> rfl

end Sys2Proof.Tests
end

section
/-! The host's turn (R13, R70, R80): the step that takes it runs the decoded instruction, and `withFetchWord` makes the word
it is given that turn. -/

namespace Sys2Proof.Machine

theorem decodeTableWord_eq_some_iff {nbits w : Nat} {i : Instr} :
    decodeTableWord nbits w = some i ↔ ∃ h, hostWordOfBits nbits w = .ok h ∧ decode h = i := by
  unfold decodeTableWord
  cases hostWordOfBits nbits w with
  | ok h => simp
  | error e => simp

theorem withFetchWord_of_ok {nbits w : Nat} {h : HostWord} (hw : hostWordOfBits nbits w = .ok h) (s : State) :
    s.withFetchWord nbits w = { s with turns := .host h :: s.turns } := by
  simp [State.withFetchWord, presentBits, hw]

theorem step_host {s : State} {w : HostWord} {ts : List Turn} (h : s.turns = .host w :: ts) :
    step s = exec (decode w) { s with turns := ts } :=
  step_cons h

/-- Settles O8: the step of a host's turn is `exec` of its decoded word, and `withFetchWord` puts the word whose bits it is
given at the head of the turns, so the step after it hands `exec` the state it started from. -/
theorem stepRunsDecodedInstruction : Obligations.StepRunsDecodedInstruction := by
  refine ⟨?_, ?_⟩
  · rintro s w i ts hturns rfl
    exact step_host hturns
  · intro s nbits w i hdec
    obtain ⟨h, hbits, rfl⟩ := decodeTableWord_eq_some_iff.mp hdec
    rw [withFetchWord_of_ok hbits]
    exact step_host rfl

end Sys2Proof.Machine
end

section
/-! What one step can do, in the terms the claims about state use: the outcome of a dispatched command, and the outcome of a
step by whose turn it is, with a command's acceptance named (R34, R196). -/

namespace Sys2Proof.Machine

/-- Everything an accepted command can do (R193, R150, R107, R125, R194): NOP nothing, a passing COMPUTE starts the engine,
and every other completes with a code of R38, writing RESULT only in a failing COMPUTE and REFL_OUT only in REFLECT. -/
theorem dispatch_outcome (opc : BitVec 8) (s : State) :
    (opc = 0#8 ∧ dispatch opc s = s) ∨
    (opc = 1#8 ∧ legalWidth s.regWidth = true ∧ dispatch opc s = startEngine (beginCommand s)) ∨
    (∃ (code : BitVec 4) (r o : Word), code.toNat ≤ 3 ∧
      (r = s.result ∨ (opc = 1#8 ∧ legalWidth s.regWidth = false ∧ r = 0#32)) ∧
      (o = s.reflOut ∨ opc = 3#8) ∧
      dispatch opc s = { complete code (beginCommand s) with result := r, reflOut := o }) := by
  rcases dispatch_cases opc s with ⟨hopc, e⟩ | ⟨hopc, e⟩ | ⟨-, e⟩ | ⟨hopc, e⟩ | ⟨-, -, -, -, e⟩
  · exact .inl ⟨hopc, e⟩
  · rw [computeCommand_eq] at e
    cases hw : legalWidth s.regWidth with
    | true =>
      rw [hw, if_pos rfl] at e
      exact .inr (.inl ⟨hopc, rfl, e⟩)
    | false =>
      rw [hw, if_neg Bool.false_ne_true] at e
      exact .inr (.inr ⟨1#4, 0#32, s.reflOut, by decide, .inr ⟨hopc, rfl, rfl⟩, .inl rfl, e⟩)
  · obtain ⟨code, hcode, hv⟩ := validateCommand_cases s
    have hle : code.toNat ≤ 3 := by rcases hcode with rfl | rfl | rfl <;> decide
    exact .inr (.inr ⟨code, s.result, s.reflOut, hle, .inl rfl, .inl rfl, e.trans hv⟩)
  · exact .inr (.inr ⟨0#4, s.result, _, by decide, .inl rfl, .inr hopc, e⟩)
  · exact .inr (.inr ⟨3#4, s.result, s.reflOut, by decide, .inl rfl, .inl rfl, e⟩)

/-- The step that accepts a command is its dispatch on the state without the turn. -/
theorem step_of_accepts {s t : State} {opc : BitVec 8} (ha : Accepts s opc) (h : step s = .next t) :
    t = dispatch opc (popTurn s) := by
  obtain ⟨hidle, w, hturn, hcmd⟩ := ha
  rw [step_eq, hturn] at h
  exact host_accept h hidle hcmd

theorem step_of_engine {s t : State} (hturn : currentTurn s = .engine) (h : step s = .next t) :
    t = engineStep (popTurn s) := by
  rw [step_eq, hturn] at h
  cases h
  rfl

theorem step_of_reset {s t : State} (hturn : currentTurn s = .reset) (h : step s = .next t) :
    t = applyReset (popTurn s) := by
  rw [step_eq, hturn] at h
  cases h
  rfl

theorem step_of_engine_final {s t : State} (hturn : currentTurn s = .engine) (hp : s.phase = .final)
    (h : step s = .next t) : t = finalStep (popTurn s) := by
  rw [step_of_engine hturn h]
  simp [engineStep, hp]

/-- Everything a step can do: a reset, the engine's turn, a change of the model's own fields alone (a read, or a write
refused by BUSY), a store while idle, or an accepted command. -/
theorem step_outcome {s t : State} (h : step s = .next t) :
    (currentTurn s = .reset ∧ t = applyReset (popTurn s)) ∨
    (currentTurn s = .engine ∧ t = engineStep (popTurn s)) ∨
    (∃ v, t = { popTurn s with rdata := v }) ∨
    (s.busy = false ∧ ∃ r d, t = writeReg r d (popTurn s)) ∨
    (∃ opc, Accepts s opc ∧ t = dispatch opc (popTurn s)) := by
  rcases step_cases h with hreset | hengine | ⟨w, hturn, hexec⟩
  · exact .inl hreset
  · exact .inr (.inl hengine)
  · rcases exec_host_cases hexec with ⟨idx, -, -, -, e⟩ | ⟨-, e⟩ | ⟨hidle, idx, d, -, -, -, e⟩ | ⟨hidle, opc, hcmd, e⟩
    · exact .inr (.inr (.inl ⟨_, e⟩))
    · exact .inr (.inr (.inl ⟨s.rdata, e⟩))
    · exact .inr (.inr (.inr (.inl ⟨hidle, _, d, e⟩)))
    · exact .inr (.inr (.inr (.inr ⟨opc, ⟨hidle, w, hturn, hcmd⟩, e⟩)))

/-- The engine's turn writes RESULT, BUSY and DONE in FINAL alone (R153). -/
theorem engineStep_writes_only_in_final (s : State) (hp : s.phase ≠ .final) :
    (engineStep s).result = s.result ∧ (engineStep s).status = s.status := by
  rcases engineStep_cases s with ⟨-, e⟩ | ⟨-, -, e⟩ | ⟨-, b, -, e⟩ | ⟨-, -, e⟩ | ⟨-, -, e⟩ | ⟨h, -⟩
  · simp [e]
  · simp [e]
  · simp [e]
  · simp [e]
  · simp [e]
  · exact absurd h hp

end Sys2Proof.Machine
end

section
/-! The invariant of R46 (`Inv`), operation by operation, and from it that every step keeps it. -/

namespace Sys2Proof.Machine

/-! ### The accumulator stays below 2^W -/

theorem reflect_toNat_lt (v : Word) {w : Nat} (hw : w ≤ 32) : (reflect v w).toNat < 2 ^ w := by
  apply Nat.lt_pow_two_of_testBit
  intro i hi
  have hbit := reflectLoop_bit v w (min w 32) i (by omega)
  rw [decide_eq_false (by omega), Bool.false_and] at hbit
  exact hbit

/-- The byte that enters the accumulator, reflected or not, has 8 bits (R151). -/
theorem absorbed_toNat_lt (refin : Bool) (b : Byte) :
    (if refin then reflect (b.setWidth 32) 8 else b.setWidth 32).toNat < 2 ^ 8 := by
  cases refin with
  | true => exact reflect_toNat_lt _ (by decide)
  | false =>
    have := b.isLt
    simp only [Bool.false_eq_true, if_false, BitVec.toNat_setWidth]
    omega

theorem absorbAcc_lt {w : Nat} (hw : 8 ≤ w) (refin : Bool) {acc : Word} (b : Byte) (hacc : acc.toNat < 2 ^ w) :
    (absorbAcc w refin acc b).toNat < 2 ^ w := by
  unfold absorbAcc
  rw [BitVec.toNat_xor, BitVec.toNat_shiftLeft, Nat.shiftLeft_eq]
  refine Nat.xor_lt_two_pow hacc (Nat.lt_of_le_of_lt (Nat.mod_le _ _) ?_)
  calc (if refin then reflect (b.setWidth 32) 8 else b.setWidth 32).toNat * 2 ^ (w - 8)
      < 2 ^ 8 * 2 ^ (w - 8) := Nat.mul_lt_mul_of_pos_right (absorbed_toNat_lt refin b) (Nat.two_pow_pos _)
    _ = 2 ^ w := by rw [← Nat.pow_add]; congr 1; omega

/-! ### The phase before a byte -/

theorem nextPhase_eq_absorb {c e : Word} : nextPhase c e = .absorb ↔ c.toNat < e.toNat := by
  unfold nextPhase
  split <;> simp [*]

theorem nextPhase_ne_idle (c e : Word) : nextPhase c e ≠ .idle := by
  unfold nextPhase
  split <;> simp

theorem nextPhase_ne_shift (c e : Word) : nextPhase c e ≠ .shift := by
  unfold nextPhase
  split <;> simp

/-! ### Idle states -/

theorem Inv.idle_of_not_busy {s : State} (h : Inv s) (hb : s.busy = false) : s.phase = .idle := by
  by_contra hp
  rw [h.busy_iff.mpr hp] at hb
  cases hb

theorem Inv.busy_of_running {s : State} (h : Inv s) {p : Phase} (hp : s.phase = p) (hne : p ≠ .idle) : s.busy = true :=
  h.busy_iff.mpr (hp ▸ hne)

theorem Inv.width_bounds {s : State} (h : Inv s) (hp : s.phase ≠ .idle) : 8 ≤ s.width ∧ s.width ≤ 32 := by
  have := (legalWidth_width s).mp (h.width_legal hp)
  omega

/-- In IDLE the invariant is about STATUS, the reserved bits and the image alone (R47). -/
theorem inv_of_idle {s : State} (hp : s.phase = .idle) (hb : s.busy = false) (hs : s.status ∈ statusValues)
    (hc : s.ctrl &&& ~~~0x00FF0FFF#32 = 0#32) (hr : s.reflWidth &&& ~~~0x000000FF#32 = 0#32)
    (hm : Memory.wf s.image = true) : Inv s where
  busy_iff := by simp [hp, hb]
  status_value := hs
  width_legal h := absurd hp h
  acc_below h := absurd hp h
  absorb_cursor h := by rw [hp] at h; cases h
  shift_cursor h := by rw [hp] at h; cases h
  final_left h := by rw [hp] at h; cases h
  ctrl_reserved := hc
  reflWidth_reserved := hr
  image_wf := hm

/-- The invariant does not speak of the model's own fields. -/
theorem Inv.with_turns_rdata {s : State} (h : Inv s) (ts : List Turn) (v : Word) :
    Inv { s with turns := ts, rdata := v } :=
  { h with }

theorem inv_popTurn {s : State} (h : Inv s) : Inv (popTurn s) := h.with_turns_rdata s.turns.tail s.rdata

/-- Settles O42: the reset state is idle, with STATUS 0 and no reserved bit set. -/
theorem resetMeetsInv : Obligations.ResetMeetsInv :=
  inv_of_idle rfl (by decide) (by decide) (by decide) (by decide) rfl

theorem inv_applyReset {s : State} (h : Inv s) : Inv (applyReset s) :=
  inv_of_idle rfl (applyReset_busy s) (by simp [statusValues]) resetMeetsInv.ctrl_reserved
    resetMeetsInv.reflWidth_reserved h.image_wf

/-! ### The host's stores and commands -/

/-- Masking a written value clears the reserved bits (R22). -/
theorem and_and_not_self (d m : Word) : d &&& m &&& ~~~m = 0#32 := by
  simp [BitVec.and_assoc]

theorem inv_writeReg {s : State} (h : Inv s) (hb : s.busy = false) (r : Reg) (d : Word) : Inv (writeReg r d s) := by
  have hp := h.idle_of_not_busy hb
  cases r with
  | ctrl => exact inv_of_idle hp hb h.status_value (and_and_not_self d _) h.reflWidth_reserved h.image_wf
  | reflWidth => exact inv_of_idle hp hb h.status_value h.ctrl_reserved (and_and_not_self d _) h.image_wf
  | cmd | status | result | reflOut | unmapped => exact h
  | poly | seed | startAddr | endAddr | reflIn =>
    exact inv_of_idle hp hb h.status_value h.ctrl_reserved h.reflWidth_reserved h.image_wf

/-- Completing a command accepted while idle leaves STATUS one of its values (R35). -/
theorem status_completed_mem {code : BitVec 4} (hcode : code.toNat ≤ 3) {w : Word} (hw : w ∈ statusValues)
    (hb : w.getLsbD 0 = false) : setDone true (setErr code (setDone false (setErr 0#4 w))) ∈ statusValues := by
  rw [status_completed code w hw hb]
  revert code
  decide

theorem Inv.completed {s : State} (h : Inv s) (hb : s.busy = false) {code : BitVec 4} (hcode : code.toNat ≤ 3)
    (r o : Word) : Inv { complete code (beginCommand s) with result := r, reflOut := o } :=
  inv_of_idle (h.idle_of_not_busy hb) ((complete_busy _ code).trans ((beginCommand_busy s).trans hb))
    (status_completed_mem hcode h.status_value hb) h.ctrl_reserved h.reflWidth_reserved h.image_wf

/-- A passing COMPUTE starts in the range with no shift left and SEED's low W bits (R150). -/
theorem inv_startEngine {s : State} (h : Inv s) (hw : legalWidth s.regWidth = true) :
    Inv (startEngine (beginCommand s)) where
  busy_iff := iff_of_true (startEngine_busy _) (nextPhase_ne_idle _ _)
  status_value := by
    rw [startEngine_status, beginCommand_status, status_started _ h.status_value]
    decide
  width_legal _ := hw
  acc_below _ := by
    have hle : s.width ≤ 32 := by have := (legalWidth_width s).mp hw; omega
    exact initAcc_lt hle s.seed
  absorb_cursor hp := ⟨le_rfl, nextPhase_eq_absorb.mp hp, rfl⟩
  shift_cursor hp := absurd hp (nextPhase_ne_shift _ _)
  final_left _ := rfl
  ctrl_reserved := h.ctrl_reserved
  reflWidth_reserved := h.reflWidth_reserved
  image_wf := h.image_wf

theorem inv_dispatch {s : State} (h : Inv s) (hb : s.busy = false) (opc : BitVec 8) : Inv (dispatch opc s) := by
  rcases dispatch_outcome opc s with ⟨-, e⟩ | ⟨-, hw, e⟩ | ⟨code, r, o, hcode, -, -, e⟩ <;> rw [e]
  · exact h
  · exact inv_startEngine h hw
  · exact h.completed hb hcode r o

/-! ### The engine's steps -/

/-- ABSORB leaves the byte's eight shifts to do, at the same cursor (R151). -/
theorem inv_absorbByte {s : State} (h : Inv s) (hp : s.phase = .absorb) (b : Byte) : Inv (absorbByte b s) where
  busy_iff := iff_of_true (h.busy_of_running hp (by decide)) (by simp)
  status_value := h.status_value
  width_legal _ := h.width_legal (by simp [hp])
  acc_below _ := absorbAcc_lt (h.width_bounds (by simp [hp])).1 s.refin b (h.acc_below (by simp [hp]))
  absorb_cursor hp' := by cases hp'
  shift_cursor _ := by
    obtain ⟨hstart, hend, -⟩ := h.absorb_cursor hp
    exact ⟨hstart, hend, by simp⟩
  final_left hp' := by cases hp'
  ctrl_reserved := h.ctrl_reserved
  reflWidth_reserved := h.reflWidth_reserved
  image_wf := h.image_wf

/-- A SHIFT that is not the byte's last leaves at least one more (R152). -/
theorem inv_shiftOnce {s : State} (h : Inv s) (hp : s.phase = .shift) (hl : s.left ≠ 1#4) : Inv (shiftOnce s) where
  busy_iff := h.busy_iff
  status_value := h.status_value
  width_legal := h.width_legal
  acc_below _ := shiftAcc_lt (h.width_bounds (by simp [hp])).2 s.poly s.acc
  absorb_cursor hp' := by cases hp.symm.trans hp'
  shift_cursor _ := by
    obtain ⟨hstart, hend, hpos, hmax⟩ := h.shift_cursor hp
    have hleft : (s.left - 1#4).toNat = s.left.toNat - 1 := BitVec.toNat_sub_of_le (by rw [BitVec.le_def]; exact hpos)
    have hne : s.left.toNat ≠ 1 := fun e => hl (BitVec.eq_of_toNat_eq e)
    refine ⟨hstart, hend, ?_⟩
    rw [shiftOnce_left, hleft]
    omega
  final_left hp' := by cases hp.symm.trans hp'
  ctrl_reserved := h.ctrl_reserved
  reflWidth_reserved := h.reflWidth_reserved
  image_wf := h.image_wf

/-- A byte's last SHIFT moves the cursor on, to the next byte of the range or past it to FINAL (R152). -/
theorem inv_nextByte {s : State} (h : Inv s) (hp : s.phase = .shift) (hl : s.left = 1#4) :
    Inv (nextByte (shiftOnce s)) where
  busy_iff := iff_of_true (h.busy_of_running hp (by decide)) (nextPhase_ne_idle _ _)
  status_value := h.status_value
  width_legal _ := h.width_legal (by simp [hp])
  acc_below _ := shiftAcc_lt (h.width_bounds (by simp [hp])).2 s.poly s.acc
  absorb_cursor hp' := by
    obtain ⟨hstart, hend, -⟩ := h.shift_cursor hp
    refine ⟨?_, nextPhase_eq_absorb.mp hp', by simp [hl]⟩
    show s.startAddr.toNat ≤ (s.cur + 1#32).toNat
    rw [add_one_toNat hend]
    omega
  shift_cursor hp' := absurd hp' (nextPhase_ne_shift _ _)
  final_left _ := by simp [hl]
  ctrl_reserved := h.ctrl_reserved
  reflWidth_reserved := h.reflWidth_reserved
  image_wf := h.image_wf

theorem inv_finalStep {s : State} (h : Inv s) : Inv (finalStep s) :=
  inv_of_idle rfl (finalStep_busy s) (by rw [finalStep_status, status_finished _ h.status_value]; decide)
    h.ctrl_reserved h.reflWidth_reserved h.image_wf

theorem inv_engineStep {s : State} (h : Inv s) : Inv (engineStep s) := by
  rcases engineStep_cases s with ⟨-, e⟩ | ⟨-, -, e⟩ | ⟨hp, b, -, e⟩ | ⟨hp, hl, e⟩ | ⟨hp, hl, e⟩ | ⟨-, e⟩ <;> rw [e]
  · exact h
  · exact h
  · exact inv_absorbByte h hp b
  · exact inv_nextByte h hp hl
  · exact inv_shiftOnce h hp hl
  · exact inv_finalStep h

/-- Settles O43: each thing a step can do keeps the invariant. -/
theorem stepKeepsInv : Obligations.StepKeepsInv := by
  intro s t h hstep
  rcases step_outcome hstep with ⟨-, rfl⟩ | ⟨-, rfl⟩ | ⟨v, rfl⟩ | ⟨hb, r, d, rfl⟩ | ⟨opc, ⟨hb, -⟩, rfl⟩
  · exact inv_applyReset (inv_popTurn h)
  · exact inv_engineStep (inv_popTurn h)
  · exact h.with_turns_rdata _ v
  · exact inv_writeReg (inv_popTurn h) hb r d
  · exact inv_dispatch (inv_popTurn h) hb opc

end Sys2Proof.Machine
end

section
/-! The state's own claims: the values after reset, the unmapped indices, who moves the cursor, and who writes RESULT, REFL_OUT
and STATUS's flags.  Each writer claim is a case analysis over `step_outcome`. -/

namespace Sys2Proof.Machine

/-- Settles O9: the reset state is R49's table. -/
theorem resetValues : Obligations.ResetValues := by
  unfold Obligations.ResetValues
  decide

/-- The indices from 11 on name no register (R43). -/
theorem regOf_unmapped : ∀ idx : BitVec 4, 11 ≤ idx.toNat → regOf idx = .unmapped := by decide

/-- Settles O15: a read of an unmapped register gives 0 and a store to one keeps the state. -/
theorem unmappedIndicesInert : Obligations.UnmappedIndicesInert := by
  intro idx data s hidx
  have hreg := regOf_unmapped idx hidx
  have hne : idx ≠ 5#4 := by rintro rfl; exact absurd hidx (by decide)
  have hstore : writeEffect idx data s = s := by rw [writeEffect_store hne, hreg]; rfl
  constructor
  · rw [exec, execRegRead, hreg]
    rfl
  · rw [exec, execRegWrite]
    cases hb : s.busy with
    | true => rw [hostWrite_busy hb]
    | false => rw [hostWrite_idle hb, hstore]

/-- The engine moves the cursor in a byte's last shift alone (R152). -/
theorem engineStep_cur (s : State) :
    (engineStep s).cur = s.cur ∨ (s.phase = .shift ∧ s.left = 1#4 ∧ (engineStep s).cur = s.cur + 1#32) := by
  rcases engineStep_cases s with ⟨-, e⟩ | ⟨-, -, e⟩ | ⟨-, b, -, e⟩ | ⟨hp, hl, e⟩ | ⟨-, -, e⟩ | ⟨-, e⟩ <;> rw [e]
  · exact .inl rfl
  · exact .inl rfl
  · exact .inl rfl
  · exact .inr ⟨hp, hl, rfl⟩
  · exact .inl rfl
  · exact .inl rfl

/-- Settles O33: only reset, an accepted COMPUTE and a byte's last shift move the cursor, and the last shift's byte is below
END, so the cursor goes to END at most. -/
theorem cursorNeverWraps : Obligations.CursorNeverWraps := by
  intro s t h hstep
  rcases step_outcome hstep with ⟨hturn, rfl⟩ | ⟨hturn, rfl⟩ | ⟨v, rfl⟩ | ⟨-, r, d, rfl⟩ | ⟨opc, hacc, rfl⟩
  · exact .inr (.inl ⟨hturn, rfl⟩)
  · rcases engineStep_cur (popTurn s) with hcur | ⟨hp, hl, hcur⟩
    · exact .inl hcur
    · obtain ⟨-, hend, -⟩ := h.shift_cursor hp
      have hnext : (engineStep (popTurn s)).cur.toNat = s.cur.toNat + 1 := by rw [hcur]; exact add_one_toNat hend
      exact .inr (.inr (.inr ⟨hturn, hp, hl, hnext, hnext ▸ hend⟩))
  · exact .inl rfl
  · obtain ⟨-, -, -, -, -, hcur, -⟩ := writeReg_frame r d (popTurn s)
    exact .inl hcur
  · rcases dispatch_outcome opc (popTurn s) with ⟨-, e⟩ | ⟨rfl, -, e⟩ | ⟨code, r, o, -, -, -, e⟩ <;> rw [e]
    · exact .inl rfl
    · exact .inr (.inr (.inl ⟨hacc, rfl⟩))
    · exact .inl rfl

/-- Settles O47: the engine writes RESULT in FINAL alone, and of the commands a failing COMPUTE does. -/
theorem resultWriters : Obligations.ResultWriters := by
  intro s t hstep hne
  rcases step_outcome hstep with ⟨hturn, -⟩ | ⟨hturn, rfl⟩ | ⟨v, rfl⟩ | ⟨-, r, d, rfl⟩ | ⟨opc, hacc, rfl⟩
  · exact .inl hturn
  · refine .inr (.inl ⟨hturn, ?_⟩)
    by_contra hp
    exact hne (engineStep_writes_only_in_final (popTurn s) hp).1
  · exact absurd rfl hne
  · obtain ⟨-, hresult, -⟩ := writeReg_frame r d (popTurn s)
    exact absurd hresult hne
  · rcases dispatch_outcome opc (popTurn s) with ⟨-, e⟩ | ⟨-, -, e⟩ | ⟨code, r, o, -, hr, -, e⟩ <;> rw [e] at hne ⊢
    · exact absurd rfl hne
    · exact absurd rfl hne
    · rcases hr with rfl | ⟨rfl, hw, rfl⟩
      · exact absurd rfl hne
      · exact .inr (.inr ⟨hacc, hw, rfl⟩)

/-- Settles O48: no engine step and no store writes REFL_OUT, and of the commands REFLECT alone does. -/
theorem reflOutWriters : Obligations.ReflOutWriters := by
  intro s t hstep hne
  rcases step_outcome hstep with ⟨hturn, -⟩ | ⟨-, rfl⟩ | ⟨v, rfl⟩ | ⟨-, r, d, rfl⟩ | ⟨opc, hacc, rfl⟩
  · exact .inl hturn
  · obtain ⟨-, -, -, -, -, -, -, hout, -⟩ := engineStep_frame (popTurn s)
    exact absurd hout hne
  · exact absurd rfl hne
  · obtain ⟨-, -, hout, -⟩ := writeReg_frame r d (popTurn s)
    exact absurd hout hne
  · rcases dispatch_outcome opc (popTurn s) with ⟨-, e⟩ | ⟨-, -, e⟩ | ⟨code, r, o, -, -, ho, e⟩ <;> rw [e] at hne
    · exact absurd rfl hne
    · exact absurd rfl hne
    · rcases ho with rfl | rfl
      · exact absurd rfl hne
      · exact .inr hacc

/-- Who writes BUSY and DONE: reset, the FINAL step, and an accepted command; every other step keeps STATUS (R36, R37). -/
theorem step_status_writers {s t : State} (hstep : step s = .next t) :
    currentTurn s = .reset ∨ (currentTurn s = .engine ∧ s.phase = .final) ∨
    (∃ opc, Accepts s opc ∧ t = dispatch opc (popTurn s)) ∨ t.status = s.status := by
  rcases step_outcome hstep with ⟨hturn, -⟩ | ⟨hturn, rfl⟩ | ⟨v, rfl⟩ | ⟨-, r, d, rfl⟩ | hcmd
  · exact .inl hturn
  · by_cases hp : s.phase = .final
    · exact .inr (.inl ⟨hturn, hp⟩)
    · exact .inr (.inr (.inr (engineStep_writes_only_in_final (popTurn s) hp).2))
  · exact .inr (.inr (.inr rfl))
  · exact .inr (.inr (.inr (writeReg_frame r d (popTurn s)).1))
  · exact .inr (.inr (.inl hcmd))

theorem busy_congr {s t : State} (h : t.status = s.status) : t.busy = s.busy := by rw [State.busy, h, State.busy]

theorem done_congr {s t : State} (h : t.status = s.status) : t.done = s.done := by rw [State.done, h, State.done]

/-- A passing COMPUTE, once accepted, starts the engine (R150). -/
theorem dispatch_compute_legal {s : State} (hw : legalWidth s.regWidth = true) :
    dispatch 1#8 s = startEngine (beginCommand s) := by
  rw [dispatch_one, computeCommand_eq, if_pos hw]

/-- BUSY rises in no step but an accepted COMPUTE that passes validation (R36). -/
theorem busy_rises_only_by_compute {s t : State} (hstep : step s = .next t) (hs : s.busy = false) (ht : t.busy = true) :
    Accepts s 1#8 ∧ legalWidth s.regWidth = true := by
  rcases step_status_writers hstep with hturn | ⟨hturn, hp⟩ | ⟨opc, hacc, rfl⟩ | hst
  · rw [step_of_reset hturn hstep, applyReset_busy] at ht
    cases ht
  · rw [step_of_engine_final hturn hp hstep, finalStep_busy] at ht
    cases ht
  · rcases dispatch_status opc (popTurn s) with ⟨-, e⟩ | ⟨rfl, hw, -⟩ | ⟨-, -, hb, -⟩
    · rw [e, popTurn_busy, hs] at ht
      cases ht
    · exact ⟨hacc, hw⟩
    · rw [hb, popTurn_busy, hs] at ht
      cases ht
  · rw [busy_congr hst, hs] at ht
    cases ht

/-- BUSY falls in no step but reset and FINAL (R36): a command is accepted while idle only. -/
theorem busy_falls_only_by_reset_or_final {s t : State} (hstep : step s = .next t) (hs : s.busy = true)
    (ht : t.busy = false) : currentTurn s = .reset ∨ (currentTurn s = .engine ∧ s.phase = .final) := by
  rcases step_status_writers hstep with hturn | hfinal | ⟨opc, ⟨hidle, -⟩, -⟩ | hst
  · exact .inl hturn
  · exact .inr hfinal
  · rw [hs] at hidle
    cases hidle
  · rw [busy_congr hst, hs] at ht
    cases ht

/-- Settles O49: the two directions of BUSY's change, and BUSY with the phase from the invariant of the next state. -/
theorem busyChanges : Obligations.BusyChanges := by
  intro s t h hstep
  refine ⟨?_, ?_, ?_, busy_rises_only_by_compute hstep, busy_falls_only_by_reset_or_final hstep,
    (stepKeepsInv s t h hstep).busy_iff⟩
  · intro hacc hw
    rw [step_of_accepts hacc hstep, dispatch_compute_legal (s := popTurn s) hw, startEngine_busy]
  · intro hturn hp
    rw [step_of_engine_final hturn hp hstep, finalStep_busy]
  · intro hturn
    rw [step_of_reset hturn hstep, applyReset_busy]

/-- An accepted command but NOP and a passing COMPUTE completes in its step (R37). -/
theorem dispatch_done {opc : BitVec 8} {s : State} (h0 : opc ≠ 0#8) (hc : ¬ (opc = 1#8 ∧ legalWidth s.regWidth = true)) :
    (dispatch opc s).done = true := by
  rcases dispatch_status opc s with ⟨hz, -⟩ | ⟨hopc, hw, -⟩ | ⟨-, -, -, hdone⟩
  · exact absurd hz h0
  · exact absurd ⟨hopc, hw⟩ hc
  · exact hdone

/-- DONE changes in no step but reset, FINAL and an accepted command other than NOP (R37). -/
theorem done_changes_only_by {s t : State} (hstep : step s = .next t) (hne : t.done ≠ s.done) :
    currentTurn s = .reset ∨ (currentTurn s = .engine ∧ s.phase = .final) ∨ ∃ opc, Accepts s opc ∧ opc ≠ 0#8 := by
  rcases step_status_writers hstep with hturn | hfinal | ⟨opc, hacc, rfl⟩ | hst
  · exact .inl hturn
  · exact .inr (.inl hfinal)
  · refine .inr (.inr ⟨opc, hacc, ?_⟩)
    rintro rfl
    exact hne rfl
  · exact absurd (done_congr hst) hne

/-- Settles O50: DONE after each of its writers, no other writer, and BUSY and DONE apart in every value of STATUS. -/
theorem doneChanges : Obligations.DoneChanges := by
  intro s t h hstep
  refine ⟨?_, ?_, ?_, ?_, done_changes_only_by hstep,
    status_not_busy_and_done t.status (stepKeepsInv s t h hstep).status_value⟩
  · intro hacc hw
    rw [step_of_accepts hacc hstep, dispatch_compute_legal (s := popTurn s) hw, startEngine_done, beginCommand_done]
  · intro opc hacc h0 hc
    rw [step_of_accepts hacc hstep]
    exact dispatch_done h0 hc
  · intro hturn hp
    rw [step_of_engine_final hturn hp hstep, finalStep_done]
  · intro hturn
    rw [step_of_reset hturn hstep, applyReset_done]

end Sys2Proof.Machine
end

section
/-! The hidden state is not observable while idle (R47): two states that are equal, or idle and differ in `h.acc`, `h.cur` and
`h.left` alone, step to two such states. -/

namespace Sys2Proof.Machine

/-- The state with other values in `h.acc`, `h.cur` and `h.left`. -/
def State.withHidden (s : State) (a c : Word) (l : BitVec 4) : State := { s with acc := a, cur := c, left := l }

theorem sameButHidden_iff {s t : State} : SameButHidden s t ↔ ∃ a c l, t = s.withHidden a c l := by
  constructor
  · intro h
    exact ⟨t.acc, t.cur, t.left, h.symm⟩
  · rintro ⟨a, c, l, rfl⟩
    rfl

/-- Equal, or idle and different in the hidden values alone: the relation that runs keep. -/
def IdleTwins (s t : State) : Prop := s = t ∨ (s.phase = .idle ∧ ∃ a c l, t = s.withHidden a c l)

theorem IdleTwins.refl (s : State) : IdleTwins s s := .inl rfl

theorem IdleTwins.sameButHidden {s t : State} (h : IdleTwins s t) : SameButHidden s t := by
  rcases h with rfl | ⟨-, h⟩
  · exact rfl
  · exact sameButHidden_iff.mpr h

/-- A host word is a read, or a write behind the gate, in either spelling (R81, R84). -/
theorem decode_read_or_write (w : HostWord) :
    (∃ idx data, decode w = .regRead idx data) ∨
    (∃ idx data, ∀ s, exec (decode w) s = .next (hostWrite (writeEffect idx data) s)) := by
  cases w with
  | cmd c => exact .inr ⟨5#4, c, exec_decodeOpc (cmdOpc c) (cmdIgn c)⟩
  | hosttx t =>
    by_cases hwe : txWe t = true
    · have hd : decode (.hosttx t) = .regWrite (txIdx t) (txData t) := if_pos hwe
      exact .inr ⟨txIdx t, txData t, fun s => by rw [hd, exec, execRegWrite]⟩
    · exact .inl ⟨txIdx t, txData t, if_neg hwe⟩

section
variable {s : State} (hp : s.phase = .idle) (a c : Word) (l : BitVec 4)
include hp

/-- A passing COMPUTE overwrites the hidden values, so the twins meet; every other command leaves them (R150). -/
theorem idleTwins_dispatch (opc : BitVec 8) : IdleTwins (dispatch opc s) (dispatch opc (s.withHidden a c l)) := by
  unfold dispatch
  split
  case h_1 => exact .inr ⟨hp, a, c, l, rfl⟩
  case h_2 =>
    rw [computeCommand_eq, computeCommand_eq, show (s.withHidden a c l).regWidth = s.regWidth from rfl]
    split
    · exact IdleTwins.refl (startEngine (beginCommand s))
    · exact .inr ⟨hp, a, c, l, rfl⟩
  case h_3 =>
    unfold validateCommand
    change IdleTwins (completeWith (validate s.startAddr s.endAddr s.valWsize s.regWidth) _)
      (completeWith (validate s.startAddr s.endAddr s.valWsize s.regWidth) _)
    cases validate s.startAddr s.endAddr s.valWsize s.regWidth with
    | ok => exact .inr ⟨hp, a, c, l, rfl⟩
    | err e => exact .inr ⟨hp, a, c, l, rfl⟩
  case h_4 => exact .inr ⟨hp, a, c, l, rfl⟩
  case h_5 => exact .inr ⟨hp, a, c, l, rfl⟩

theorem idleTwins_writeReg (r : Reg) (d : Word) : IdleTwins (writeReg r d s) (writeReg r d (s.withHidden a c l)) := by
  cases r <;> exact .inr ⟨hp, a, c, l, rfl⟩

theorem idleTwins_hostWrite (idx : BitVec 4) (d : Word) :
    IdleTwins (hostWrite (writeEffect idx d) s) (hostWrite (writeEffect idx d) (s.withHidden a c l)) := by
  have hbusy : (s.withHidden a c l).busy = s.busy := rfl
  cases hb : s.busy with
  | true =>
    rw [hostWrite_busy hb, hostWrite_busy (hbusy.trans hb)]
    exact .inr ⟨hp, a, c, l, rfl⟩
  | false =>
    rw [hostWrite_idle hb, hostWrite_idle (hbusy.trans hb)]
    by_cases h5 : idx = 5#4
    · rw [h5, writeEffect_cmd, writeEffect_cmd]
      exact idleTwins_dispatch hp a c l (cmdOpc d)
    · rw [writeEffect_store h5, writeEffect_store h5]
      exact idleTwins_writeReg hp a c l (regOf idx) d

/-- No register that a host read returns is a hidden value (R45, R190). -/
theorem idleTwins_read (r : Reg) :
    IdleTwins { s with rdata := readReg r s }
      { s.withHidden a c l with rdata := readReg r (s.withHidden a c l) } := by
  cases r <;> exact .inr ⟨hp, a, c, l, rfl⟩

/-- Any turn from idle twins ends in idle twins: the idle engine waits and a reset clears the hidden values. -/
theorem idleTwins_runTurn (turn : Turn) :
    ∃ u v, runTurn turn s = .next u ∧ runTurn turn (s.withHidden a c l) = .next v ∧ IdleTwins u v := by
  cases turn with
  | reset => exact ⟨_, _, rfl, rfl, IdleTwins.refl (applyReset s)⟩
  | engine =>
    refine ⟨_, _, rfl, rfl, ?_⟩
    have hwait : engineStep s = s := by simp [engineStep, hp]
    have hwait' : engineStep (s.withHidden a c l) = s.withHidden a c l := by
      simp [engineStep, show (s.withHidden a c l).phase = .idle from hp]
    rw [hwait, hwait']
    exact .inr ⟨hp, a, c, l, rfl⟩
  | host w =>
    rcases decode_read_or_write w with ⟨idx, data, hw⟩ | ⟨idx, data, hw⟩
    · rw [runTurn, runTurn, hw]
      exact ⟨_, _, rfl, rfl, idleTwins_read hp a c l (regOf idx)⟩
    · exact ⟨_, _, hw _, hw _, idleTwins_hostWrite hp a c l idx data⟩

end

/-- Every turn is a next state (R210, R87). -/
theorem runTurn_next (turn : Turn) (s : State) : ∃ t, runTurn turn s = .next t := by
  cases turn with
  | reset => exact ⟨_, rfl⟩
  | engine => exact ⟨_, rfl⟩
  | host w =>
    rcases decode_read_or_write w with ⟨idx, data, hw⟩ | ⟨idx, data, hw⟩
    · rw [runTurn, hw]
      exact ⟨_, rfl⟩
    · exact ⟨_, hw s⟩

theorem idleTwins_step {s t : State} (h : IdleTwins s t) :
    ∃ u v, step s = .next u ∧ step t = .next v ∧ IdleTwins u v := by
  rcases h with rfl | ⟨hp, a, c, l, rfl⟩
  · obtain ⟨u, hu⟩ := runTurn_next (currentTurn s) (popTurn s)
    exact ⟨u, u, hu, hu, IdleTwins.refl u⟩
  · exact idleTwins_runTurn (s := popTurn s) hp a c l (currentTurn s)

theorem idleTwins_run (n : Nat) {s t : State} (h : IdleTwins s t) :
    ∃ u v, Host.Core.run Sys2Proof.core n s = .next u ∧ Host.Core.run Sys2Proof.core n t = .next v ∧ IdleTwins u v := by
  induction n generalizing s t with
  | zero => exact ⟨s, t, rfl, rfl, h⟩
  | succ n ih =>
    obtain ⟨u, v, hu, hv, huv⟩ := idleTwins_step h
    rw [run_succ hu, run_succ hv]
    exact ih huv

/-- Settles O53: idle states that differ in the hidden values alone are twins, and runs keep twins. -/
theorem idleHiddenStateUnobservable : Obligations.IdleHiddenStateUnobservable := by
  intro s t n _ _ hp hst
  obtain ⟨u, v, hu, hv, huv⟩ := idleTwins_run n (.inr ⟨hp, sameButHidden_iff.mp hst⟩)
  exact ⟨u, v, hu, hv, huv.sameButHidden⟩

end Sys2Proof.Machine
end

section
/-! The memory image (R60 to R69): no step writes it, and a step reads at most the byte under the cursor of an ABSORB.  What
follows of a state stuck at a missing byte (R62, R155), and why only the bytes of [START, END) matter. -/

namespace Sys2Proof.Machine

/-! ### The image is kept -/

theorem step_image {s t : State} (h : step s = .next t) : t.image = s.image := by
  rcases step_outcome h with ⟨-, rfl⟩ | ⟨-, rfl⟩ | ⟨v, rfl⟩ | ⟨-, r, d, rfl⟩ | ⟨opc, -, rfl⟩
  · exact applyReset_image (popTurn s)
  · obtain ⟨-, -, -, -, -, -, -, -, himage, -⟩ := engineStep_frame (popTurn s)
    exact himage
  · rfl
  · obtain ⟨-, -, -, -, -, -, -, himage, -⟩ := writeReg_frame r d (popTurn s)
    exact himage
  · obtain ⟨-, -, -, -, -, -, -, himage, -⟩ := dispatch_frame opc (popTurn s)
    exact himage

/-- Settles O45: the image is kept, so every address reads as before. -/
theorem imageNeverWritten : Obligations.ImageNeverWritten := by
  intro s t h
  have himage := step_image h
  exact ⟨himage, fun a => by rw [himage]⟩

/-! ### A stuck engine -/

/-- An ABSORB without its byte waits (R62). -/
theorem Stuck.engineStep_eq {s : State} (h : Stuck s) : engineStep s = s := by
  obtain ⟨-, hp, hread⟩ := h
  simp [engineStep, hp, absorbStep, hread]

/-- Being stuck does not depend on the model's own fields. -/
theorem Stuck.with_turns_rdata {s : State} (h : Stuck s) (ts : List Turn) (v : Word) :
    Stuck { s with turns := ts, rdata := v } := h

/-- A stuck state is BUSY, so of the things a step can do only a reset, the engine's waiting and a read or a refused write are
left (R62, R192). -/
theorem Stuck.step_waits {s t : State} (h : Stuck s) (hturn : currentTurn s ≠ .reset) (hstep : step s = .next t) :
    ∃ v, t = { s with turns := s.turns.tail, rdata := v } := by
  have ⟨hbusy, _, _⟩ := h
  rcases step_outcome hstep with ⟨hreset, -⟩ | ⟨-, rfl⟩ | ⟨v, rfl⟩ | ⟨hidle, -⟩ | ⟨opc, ⟨hidle, -⟩, -⟩
  · exact absurd hreset hturn
  · exact ⟨s.rdata, (h.with_turns_rdata s.turns.tail s.rdata).engineStep_eq⟩
  · exact ⟨v, rfl⟩
  · rw [hbusy] at hidle
    cases hidle
  · rw [hbusy] at hidle
    cases hidle

/-- Settles O32: a step has a next state, which is stuck still unless the turn was a reset's. -/
theorem stuckUntilReset : Obligations.StuckUntilReset := by
  intro s h
  obtain ⟨t, hstep⟩ : ∃ t, step s = .next t := runTurn_next (currentTurn s) (popTurn s)
  constructor
  · intro hturn
    obtain ⟨v, rfl⟩ := h.step_waits hturn hstep
    exact ⟨v, hstep, h.with_turns_rdata s.turns.tail v⟩
  · intro hturn
    obtain rfl := step_of_reset hturn hstep
    exact ⟨_, hstep, applyReset_busy _, applyReset_phase _, applyReset_result _⟩

/-! ### Replacing the image commutes with everything but ABSORB -/

section
variable (m : Memory) (s : State)

theorem readReg_withImage (r : Reg) : readReg r (s.withImage m) = readReg r s := by
  cases r <;> rfl

theorem writeReg_withImage (r : Reg) (d : Word) : writeReg r d (s.withImage m) = (writeReg r d s).withImage m := by
  cases r <;> rfl

theorem completeWith_withImage (v : Verdict) : completeWith v (s.withImage m) = (completeWith v s).withImage m := by
  cases v <;> rfl

theorem computeCommand_withImage : computeCommand (s.withImage m) = (computeCommand s).withImage m := by
  rw [computeCommand_eq, computeCommand_eq, State.withImage_regWidth]
  split <;> rfl

theorem validateCommand_withImage : validateCommand (s.withImage m) = (validateCommand s).withImage m :=
  completeWith_withImage m (beginCommand s) _

/-- No command reads the image: COMPUTE's acceptance reads START, END and the width alone (R104, R150). -/
theorem dispatch_withImage (opc : BitVec 8) : dispatch opc (s.withImage m) = (dispatch opc s).withImage m := by
  unfold dispatch
  split
  · rfl
  · exact computeCommand_withImage m s
  · exact validateCommand_withImage m s
  · rfl
  · rfl

theorem writeEffect_withImage (idx : BitVec 4) (d : Word) :
    writeEffect idx d (s.withImage m) = (writeEffect idx d s).withImage m := by
  by_cases h5 : idx = 5#4
  · rw [h5, writeEffect_cmd, writeEffect_cmd, dispatch_withImage]
  · rw [writeEffect_store h5, writeEffect_store h5, writeReg_withImage]

theorem hostWrite_withImage (idx : BitVec 4) (d : Word) :
    hostWrite (writeEffect idx d) (s.withImage m) = (hostWrite (writeEffect idx d) s).withImage m := by
  have hbusy : (s.withImage m).busy = s.busy := rfl
  cases hb : s.busy with
  | true => rw [hostWrite_busy hb, hostWrite_busy (hbusy.trans hb)]
  | false => rw [hostWrite_idle hb, hostWrite_idle (hbusy.trans hb), writeEffect_withImage]

end

/-- The host has no path to the image: its transactions do the same over any other (R69). -/
theorem exec_withImage {w : HostWord} {s t : State} (m : Memory) (h : exec (decode w) s = .next t) :
    exec (decode w) (s.withImage m) = .next (t.withImage m) := by
  rcases decode_read_or_write w with ⟨idx, data, hw⟩ | ⟨idx, data, hw⟩
  · rw [hw, exec, execRegRead] at h ⊢
    cases h
    rw [readReg_withImage]
    rfl
  · rw [hw] at h ⊢
    cases h
    rw [hostWrite_withImage]

/-- ABSORB reads the image at the cursor alone (R64, R151). -/
theorem absorbStep_withImage {s : State} {m : Memory} (hm : Memory.read m s.cur = Memory.read s.image s.cur) :
    absorbStep (s.withImage m) = (absorbStep s).withImage m := by
  unfold absorbStep
  rw [State.withImage_image, State.withImage_cur, hm]
  cases Memory.read s.image s.cur <;> rfl

theorem shiftStep_withImage (s : State) (m : Memory) : shiftStep (s.withImage m) = (shiftStep s).withImage m := by
  have hleft : (shiftOnce (s.withImage m)).left = (shiftOnce s).left := rfl
  unfold shiftStep
  rw [hleft]
  split <;> rfl

/-- In no other phase does the engine read the image (R152, R153, R154). -/
theorem engineStep_withImage {s : State} {m : Memory}
    (hm : s.phase = .absorb → Memory.read m s.cur = Memory.read s.image s.cur) :
    engineStep (s.withImage m) = (engineStep s).withImage m := by
  unfold engineStep
  rw [State.withImage_phase]
  cases hp : s.phase with
  | idle => rfl
  | absorb => exact absorbStep_withImage (hm hp)
  | shift => exact shiftStep_withImage s m
  | final => rfl

/-- A step over another image that gives the same byte, or lack of one, to the ABSORB in turn is the same step. -/
theorem step_withImage {s t : State} {m : Memory} (h : step s = .next t)
    (hm : s.phase = .absorb → Memory.read m s.cur = Memory.read s.image s.cur) :
    step (s.withImage m) = .next (t.withImage m) := by
  change runTurn (currentTurn s) ((popTurn s).withImage m) = _
  rcases step_cases h with ⟨hturn, rfl⟩ | ⟨hturn, rfl⟩ | ⟨w, hturn, hexec⟩ <;> rw [hturn]
  · rfl
  · exact congrArg _ (engineStep_withImage (s := popTurn s) hm)
  · exact exec_withImage m hexec

/-- Settles O46: by the invariant an ABSORB's cursor is in [START, END), where the two images agree. -/
theorem onlyRangeBytesMatter : Obligations.OnlyRangeBytesMatter := by
  intro s t m hinv hstep hm
  refine step_withImage hstep fun hp => ?_
  obtain ⟨hstart, hend, -⟩ := hinv.absorb_cursor hp
  exact hm s.cur hstart hend

end Sys2Proof.Machine
end

section
/-! Encoding and decoding (R80 to R87): the two are inverse, since every host word encodes some instruction, and each word
is in its own instruction's row of the opcode table and in no other. -/

namespace Sys2Proof

theorem decode_packTx_write (idx : BitVec 4) (data : Word) :
    decode (.hosttx (packTx 1#1 idx data)) = .regWrite idx data := by
  simp [decode, decodeHostTx]

theorem decode_packTx_read (idx : BitVec 4) (data : Word) :
    decode (.hosttx (packTx 0#1 idx data)) = .regRead idx data := by
  simp [decode, decodeHostTx]

theorem decode_packCmd (ign : BitVec 24) (opc : BitVec 8) : decode (.cmd (packCmd ign opc)) = decodeOpc opc ign := by
  simp [decode]

/-- The decoder gives every instruction back: the fields of a packed word are the operands, and an opcode with a row's
leading one is that row's (R81, R84, R85). -/
theorem decode_encode (i : Instr) : decode (encode i) = i := by
  cases i with
  | regRead idx data => exact decode_packTx_read idx data
  | regWrite idx data => exact decode_packTx_write idx data
  | nop ign => exact decode_packCmd ign 0x00#8
  | compute ign => exact decode_packCmd ign 0x01#8
  | validate ign => exact decode_packCmd ign 0x02#8
  | reflect ign => exact decode_packCmd ign 0x03#8
  | illegal04 low ign => exact (decode_packCmd ign _).trans (illegal04_opc low ign)
  | illegal08 low ign => exact (decode_packCmd ign _).trans (illegal08_opc low ign)
  | illegal10 low ign => exact (decode_packCmd ign _).trans (illegal10_opc low ign)
  | illegal20 low ign => exact (decode_packCmd ign _).trans (illegal20_opc low ign)
  | illegal40 low ign => exact (decode_packCmd ign _).trans (illegal40_opc low ign)
  | illegal80 low ign => exact (decode_packCmd ign _).trans (illegal80_opc low ign)

/-- An opcode is one of the four commands', or its leading one, at bit 2 to bit 7, is followed by the operand of an illegal
row (R85). -/
theorem opc_row_cases (opc : BitVec 8) :
    opc = 0x00#8 ∨ opc = 0x01#8 ∨ opc = 0x02#8 ∨ opc = 0x03#8 ∨
    (∃ low : BitVec 2, opc = 1#6 ++ low) ∨ (∃ low : BitVec 3, opc = 1#5 ++ low) ∨
    (∃ low : BitVec 4, opc = 1#4 ++ low) ∨ (∃ low : BitVec 5, opc = 1#3 ++ low) ∨
    (∃ low : BitVec 6, opc = 1#2 ++ low) ∨ (∃ low : BitVec 7, opc = 1#1 ++ low) := by
  have h : ∀ opc : BitVec 8, opc = 0x00#8 ∨ opc = 0x01#8 ∨ opc = 0x02#8 ∨ opc = 0x03#8 ∨
      opc = 1#6 ++ opc.extractLsb' 0 2 ∨ opc = 1#5 ++ opc.extractLsb' 0 3 ∨ opc = 1#4 ++ opc.extractLsb' 0 4 ∨
      opc = 1#3 ++ opc.extractLsb' 0 5 ∨ opc = 1#2 ++ opc.extractLsb' 0 6 ∨ opc = 1#1 ++ opc.extractLsb' 0 7 := by
    decide
  exact (h opc).imp_right <| .imp_right <| .imp_right <| .imp_right <| .imp (⟨_, ·⟩) <| .imp (⟨_, ·⟩) <|
    .imp (⟨_, ·⟩) <| .imp (⟨_, ·⟩) <| .imp (⟨_, ·⟩) (⟨_, ·⟩)

theorem exists_encode_eq_packCmd (ign : BitVec 24) (opc : BitVec 8) : ∃ i, encode i = .cmd (packCmd ign opc) := by
  rcases opc_row_cases opc with rfl | rfl | rfl | rfl | ⟨low, rfl⟩ | ⟨low, rfl⟩ | ⟨low, rfl⟩ | ⟨low, rfl⟩ | ⟨low, rfl⟩ |
    ⟨low, rfl⟩
  · exact ⟨.nop ign, rfl⟩
  · exact ⟨.compute ign, rfl⟩
  · exact ⟨.validate ign, rfl⟩
  · exact ⟨.reflect ign, rfl⟩
  · exact ⟨.illegal04 low ign, rfl⟩
  · exact ⟨.illegal08 low ign, rfl⟩
  · exact ⟨.illegal10 low ign, rfl⟩
  · exact ⟨.illegal20 low ign, rfl⟩
  · exact ⟨.illegal40 low ign, rfl⟩
  · exact ⟨.illegal80 low ign, rfl⟩

theorem exists_encode_eq_packTx (we : BitVec 1) (idx : BitVec 4) (data : Word) :
    ∃ i, encode i = .hosttx (packTx we idx data) := by
  have hwe : we = 0#1 ∨ we = 1#1 := by revert we; decide
  rcases hwe with rfl | rfl
  · exact ⟨.regRead idx data, rfl⟩
  · exact ⟨.regWrite idx data, rfl⟩

/-- Every host word is an instruction's encoding (R81, R85). -/
theorem encode_surjective : Function.Surjective encode := by
  intro w
  cases w with
  | hosttx t => exact packTx_fields t ▸ exists_encode_eq_packTx _ (txIdx t) (txData t)
  | cmd c => exact packCmd_fields c ▸ exists_encode_eq_packCmd (cmdIgn c) (cmdOpc c)

theorem encode_decode (w : HostWord) : encode (decode w) = w :=
  (Function.LeftInverse.rightInverse_of_surjective decode_encode encode_surjective) w

/-- Settles O2: decoding undoes encoding, and every word is an encoding. -/
theorem decodeEncodeAgree : Obligations.DecodeEncodeAgree := ⟨decode_encode, encode_decode⟩

/-! ### The opcode map -/

theorem mnemonic_decodeOpc_illegal {opc : BitVec 8} (h0 : opc ≠ 0x00#8) (h1 : opc ≠ 0x01#8) (h2 : opc ≠ 0x02#8)
    (h3 : opc ≠ 0x03#8) (ign : BitVec 24) : (decodeOpc opc ign).mnemonic = "ILLEGAL" := by
  unfold decodeOpc
  rw [if_neg h0, if_neg h1, if_neg h2, if_neg h3]
  repeat' split
  all_goals rfl

/-- The opcode map in the terms of R85. -/
theorem mnemonic_decodeOpc (opc : BitVec 8) (ign : BitVec 24) :
    (decodeOpc opc ign).mnemonic =
      (if opc.toNat = 0 then "NOP"
       else if opc.toNat = 1 then "COMPUTE"
       else if opc.toNat = 2 then "VALIDATE"
       else if opc.toNat = 3 then "REFLECT"
       else "ILLEGAL") := by
  by_cases h0 : opc = 0x00#8
  · subst h0; rfl
  by_cases h1 : opc = 0x01#8
  · subst h1; rfl
  by_cases h2 : opc = 0x02#8
  · subst h2; rfl
  by_cases h3 : opc = 0x03#8
  · subst h3; rfl
  have ne {k : BitVec 8} (h : opc ≠ k) : opc.toNat ≠ k.toNat := fun e => h (BitVec.eq_of_toNat_eq e)
  have hn0 : opc.toNat ≠ 0 := ne h0
  have hn1 : opc.toNat ≠ 1 := ne h1
  have hn2 : opc.toNat ≠ 2 := ne h2
  have hn3 : opc.toNat ≠ 3 := ne h3
  rw [mnemonic_decodeOpc_illegal h0 h1 h2 h3, if_neg hn0, if_neg hn1, if_neg hn2, if_neg hn3]

/-- Settles O3: OPC is the command word modulo 256. -/
theorem opcodeMap : Obligations.OpcodeMap := by
  intro c
  rw [← cmdOpc_toNat]
  exact mnemonic_decodeOpc (cmdOpc c) (cmdIgn c)

/-! ### The rows of the opcode table -/

/-- Every instruction's encoding is in the instruction's row. -/
theorem encodesRow (i : Instr) : Laws.EncodesRow.Statement i := by
  cases i with
  | regRead idx data => exact Laws.EncodesRow.regRead idx data
  | regWrite idx data => exact Laws.EncodesRow.regWrite idx data
  | nop ign => exact Laws.EncodesRow.nop ign
  | compute ign => exact Laws.EncodesRow.compute ign
  | validate ign => exact Laws.EncodesRow.validate ign
  | reflect ign => exact Laws.EncodesRow.reflect ign
  | illegal04 low ign => exact Laws.EncodesRow.illegal04 low ign
  | illegal08 low ign => exact Laws.EncodesRow.illegal08 low ign
  | illegal10 low ign => exact Laws.EncodesRow.illegal10 low ign
  | illegal20 low ign => exact Laws.EncodesRow.illegal20 low ign
  | illegal40 low ign => exact Laws.EncodesRow.illegal40 low ign
  | illegal80 low ign => exact Laws.EncodesRow.illegal80 low ign

/-- Two rows of one format whose patterns agree on the bits that both fix: the rows that some word could share. -/
def OpcodeRow.Overlaps (r r' : OpcodeRow) : Prop :=
  r.format = r'.format ∧ r.pattern &&& r'.mask = r'.pattern &&& r.mask

theorem OpcodeRow.holds_iff {r : OpcodeRow} {w : HostWord} :
    r.holds w = true ↔ r.format = w.format ∧ w.bits &&& r.mask = r.pattern := by
  simp [OpcodeRow.holds]

theorem OpcodeRow.overlaps_of_holds {r r' : OpcodeRow} {w : HostWord} (h : r.holds w = true) (h' : r'.holds w = true) :
    r.Overlaps r' := by
  obtain ⟨hformat, hbits⟩ := OpcodeRow.holds_iff.mp h
  obtain ⟨hformat', hbits'⟩ := OpcodeRow.holds_iff.mp h'
  refine ⟨hformat.trans hformat'.symm, ?_⟩
  rw [← hbits, ← hbits', Nat.and_right_comm]

/-- No two rows of the table overlap. -/
theorem opcodeTable_rows_disjoint {j k : Nat} {r r' : OpcodeRow} (hj : opcodeTable[j]? = some r)
    (hk : opcodeTable[k]? = some r') (h : r.Overlaps r') : j = k := by
  have hall : ∀ a b : Fin 12, opcodeTable[a].format = opcodeTable[b].format ∧
      opcodeTable[a].pattern &&& opcodeTable[b].mask = opcodeTable[b].pattern &&& opcodeTable[a].mask → a = b := by
    decide
  obtain ⟨hj', rfl⟩ := List.getElem?_eq_some_iff.mp hj
  obtain ⟨hk', rfl⟩ := List.getElem?_eq_some_iff.mp hk
  exact congrArg Fin.val (hall ⟨j, hj'⟩ ⟨k, hk'⟩ h)

/-- Settles O4: a word is the encoding of its decoded instruction, which is in that instruction's row, and the rows do not
overlap. -/
theorem everyWordHasOneTableRow : Obligations.EveryWordHasOneTableRow := by
  intro w
  obtain ⟨r, hr, hmnemonic, hholds⟩ := encodesRow (decode w)
  rw [encode_decode] at hholds
  refine ⟨⟨r, hr, hholds, hmnemonic⟩, ?_⟩
  intro k r' hr' hholds'
  exact opcodeTable_rows_disjoint hr' hr (OpcodeRow.overlaps_of_holds hholds' hholds)

/-! ### Host transactions and commands -/

/-- Settles O5: a transaction is packed from its fields, and a read's DATA reaches no part of its meaning. -/
theorem hostTransactionFields : Obligations.HostTransactionFields := by
  refine ⟨decode_packTx_write, decode_packTx_read, ?_, ?_, ?_, by decide, by decide⟩
  · intro t
    exact ⟨_, txIdx t, txData t, (packTx_fields t).symm⟩
  · intro idx data
    exact beq_iff_eq
  · intro idx data data' s
    rfl

theorem decodeTableWord_hosttx_too_long {w : Nat} (h : 2 ^ 37 ≤ w) : decodeTableWord 40 w = none := by
  have hbits : hostWordOfBits 40 w = .error .reservedBits39to37 := by
    simp only [hostWordOfBits]
    exact if_neg (Nat.not_lt.mpr h)
  simp [decodeTableWord, hbits]

/-- Settles O1: the decoder is run on the nine words; a longer number is rejected for its reserved bits. -/
theorem sampleWordsDecode : Obligations.SampleWordsDecode := by
  refine ⟨by decide, by decide, by decide, by decide, by decide, by decide, by decide, by decide, by decide, ?_⟩
  intro w h
  exact decodeTableWord_hosttx_too_long h

end Sys2Proof
end

section
/-! Commands and host scripts (R84, R89 to R91): a command word acts by its opcode alone, and a script line's word is the
packed transaction that the line names. -/

namespace Sys2Proof.Machine

/-! ### Command words -/

theorem exec_cmd (c : Word) (s : State) : exec (decode (.cmd c)) s = .next (hostWrite (dispatch (cmdOpc c)) s) :=
  exec_decodeOpc (cmdOpc c) (cmdIgn c) s

theorem exec_regWrite_cmd (c : Word) (s : State) :
    exec (.regWrite 5#4 c) s = .next (hostWrite (dispatch (cmdOpc c)) s) := rfl

/-- Settles O6: both spellings of a command dispatch on its opcode, which is its bits 7:0. -/
theorem commandHighBitsIgnored : Obligations.CommandHighBitsIgnored := by
  refine ⟨?_, by decide⟩
  intro c c' s hlow
  have hopc : cmdOpc c = cmdOpc c' := by
    apply BitVec.eq_of_toNat_eq
    rw [cmdOpc_toNat, cmdOpc_toNat, hlow]
  constructor
  · rw [exec_cmd, exec_cmd, hopc]
  · rw [exec_regWrite_cmd, exec_cmd, hopc]

/-! ### Script lines -/

/-- `WR`'s union of shifted fields is the packed write (R81, R89). -/
theorem encodeWr_eq_packTx (idx : BitVec 4) (value : Word) : encodeWr idx value = packTx 1#1 idx value := by
  apply BitVec.eq_of_getLsbD_eq
  intro i hi
  have hwe : (1#37 <<< 36).getLsbD i = decide (36 = i) := by
    rw [show 1#37 <<< 36 = BitVec.twoPow 37 36 from rfl, BitVec.getLsbD_twoPow]
    simp
  unfold encodeWr packTx
  rw [BitVec.getLsbD_append, BitVec.getLsbD_append, BitVec.getLsbD_or, BitVec.getLsbD_or, hwe]
  by_cases h32 : i < 32
  · simp [h32, hi, show i < 36 by omega, show 36 ≠ i by omega]
  · by_cases h36 : i < 36
    · have hvalue : value.getLsbD i = false := BitVec.getLsbD_of_ge value i (by omega)
      simp [h32, hi, h36, show 36 ≠ i by omega, hvalue]
    · obtain rfl : i = 36 := by omega
      simp

/-- `RD`'s shifted index is the packed read, with DATA 0 (R81, R89). -/
theorem encodeRd_eq_packTx (idx : BitVec 4) : encodeRd idx = packTx 0#1 idx 0#32 := by
  apply BitVec.eq_of_getLsbD_eq
  intro i hi
  unfold encodeRd packTx
  rw [BitVec.getLsbD_append, BitVec.getLsbD_append]
  by_cases h32 : i < 32
  · simp [h32]
  · by_cases h36 : i < 36
    · simp [h32, hi, h36]
    · obtain rfl : i = 36 := by omega
      simp

theorem decode_encodeWr (idx : BitVec 4) (value : Word) : decode (.hosttx (encodeWr idx value)) = .regWrite idx value := by
  rw [encodeWr_eq_packTx, decode_packTx_write]

theorem decode_encodeRd (idx : BitVec 4) : decode (.hosttx (encodeRd idx)) = .regRead idx 0#32 := by
  rw [encodeRd_eq_packTx, decode_packTx_read]

theorem exec_write_ctrl_idle {s : State} (hidle : s.busy = false) (data : Word) :
    exec (.regWrite 0#4 data) s = .next { s with ctrl := data &&& ctrlMask } := by
  rw [exec, execRegWrite, hostWrite_idle hidle]
  rfl

section
variable (w : BitVec 8) (refin refout fx mode : Bool) (ws : BitVec 8)

theorem configWord_regWidth : (configWord w refin refout fx mode ws &&& ctrlMask).extractLsb' 0 8 = w := by
  apply BitVec.eq_of_getLsbD_eq
  intro i hi
  interval_cases i <;> simp [configWord, ctrlMask]

theorem configWord_refin : (configWord w refin refout fx mode ws &&& ctrlMask).getLsbD 8 = refin := by
  simp [configWord, ctrlMask]

theorem configWord_refout : (configWord w refin refout fx mode ws &&& ctrlMask).getLsbD 9 = refout := by
  simp [configWord, ctrlMask]

theorem configWord_finalXor : (configWord w refin refout fx mode ws &&& ctrlMask).getLsbD 10 = fx := by
  simp [configWord, ctrlMask]

theorem configWord_applyMode : (configWord w refin refout fx mode ws &&& ctrlMask).getLsbD 11 = mode := by
  simp [configWord, ctrlMask]

theorem configWord_valWsize : (configWord w refin refout fx mode ws &&& ctrlMask).extractLsb' 16 8 = ws := by
  apply BitVec.eq_of_getLsbD_eq
  intro i hi
  interval_cases i <;> simp [configWord, ctrlMask]

end

/-- Settles O7: every line's word is `WR`'s or `RD`'s of its expansion, and the CTRL that CONFIG's write stores while idle has
each argument in its own field. -/
theorem scriptLinesDecode : Obligations.ScriptLinesDecode := by
  refine ⟨decode_encodeWr, decode_encodeRd, decode_encodeWr 5#4 0#32, decode_encodeWr 5#4 1#32, decode_encodeWr 5#4 2#32,
    decode_encodeWr 5#4 3#32, decode_encodeRd 6#4, fun idx _ => decode_encodeRd idx, ?_⟩
  intro w refin refout fx mode ws s hidle
  have hexec : exec (decode (.hosttx (ScriptLine.config w refin refout fx mode ws).word)) s =
      .next { s with ctrl := configWord w refin refout fx mode ws &&& ctrlMask } := by
    rw [ScriptLine.word, decode_encodeWr, exec_write_ctrl_idle hidle]
  exact ⟨_, hexec, rfl, configWord_regWidth .., configWord_refin .., configWord_refout .., configWord_finalXor ..,
    configWord_applyMode .., configWord_valWsize ..⟩

end Sys2Proof.Machine
end

section
/-! The signal-level interface (R82, R249).  While BUSY the host's transaction changes at most the value the host holds, so
the engine's part of a cycle is its step from the state before the edge; while idle the host's part is the whole cycle. -/

namespace Sys2Proof.Machine

/-! ### The host's part of a cycle -/

/-- The instruction on the host's signals is the write or the read that `h_we` names (R82). -/
theorem decode_transaction (p : PortIn) :
    decode p.transaction = if p.hWe = true then .regWrite p.hIdx p.hWdata else .regRead p.hIdx p.hWdata := by
  unfold PortIn.transaction
  cases p.hWe with
  | true => exact decode_packTx_write p.hIdx p.hWdata
  | false => exact decode_packTx_read p.hIdx p.hWdata

/-- The value the host holds after a cycle: `h_rdata` if it reads, else what it held (R82). -/
def PortIn.heldValue (p : PortIn) (s : State) : Word :=
  if p.hReq = true ∧ p.hWe = false then (portOutputs p s).hRdata else s.rdata

theorem hostCycle_of_no_request {p : PortIn} (hreq : p.hReq = false) (s : State) : hostCycle p s = .next s := by
  simp [hostCycle, hreq]

theorem hostCycle_of_request {p : PortIn} (hreq : p.hReq = true) (s : State) :
    hostCycle p s = runTurn (.host p.transaction) s := by
  simp [hostCycle, hreq, runTurn]

theorem hostCycle_read {p : PortIn} (hreq : p.hReq = true) (hwe : p.hWe = false) (s : State) :
    hostCycle p s = .next { s with rdata := (portOutputs p s).hRdata } := by
  rw [hostCycle_of_request hreq, runTurn, decode_transaction, hwe]
  rfl

theorem hostCycle_write {p : PortIn} (hreq : p.hReq = true) (hwe : p.hWe = true) (s : State) :
    hostCycle p s = .next (hostWrite (writeEffect p.hIdx p.hWdata) s) := by
  rw [hostCycle_of_request hreq, runTurn, decode_transaction, hwe]
  rfl

theorem hostCycle_next (p : PortIn) (s : State) : ∃ t, hostCycle p s = .next t := by
  cases hreq : p.hReq with
  | false => exact ⟨s, hostCycle_of_no_request hreq s⟩
  | true => exact hostCycle_of_request hreq s ▸ runTurn_next _ s

/-- While BUSY a transaction changes at most the value the host holds (R192, R190). -/
theorem hostCycle_of_busy (p : PortIn) {s : State} (hbusy : s.busy = true) :
    hostCycle p s = .next { s with rdata := p.heldValue s } := by
  cases hreq : p.hReq with
  | false =>
    rw [hostCycle_of_no_request hreq]
    simp [PortIn.heldValue, hreq]
  | true =>
    cases hwe : p.hWe with
    | false =>
      rw [hostCycle_read hreq hwe]
      simp [PortIn.heldValue, hreq, hwe]
    | true =>
      rw [hostCycle_write hreq hwe, hostWrite_busy hbusy]
      simp [PortIn.heldValue, hwe]

/-! ### The edge -/

theorem clockEdge_reset {p : PortIn} (hrst : p.rst = true) (s : State) : clockEdge p s = .next (applyReset s) := by
  simp [clockEdge, hrst]

theorem clockEdge_idle {p : PortIn} (hrst : p.rst = false) {s : State} (hidle : s.busy = false) :
    clockEdge p s = hostCycle p s := by
  obtain ⟨t, ht⟩ := hostCycle_next p s
  simp [clockEdge, hrst, hidle, ht]

theorem clockEdge_busy {p : PortIn} (hrst : p.rst = false) {s : State} (hbusy : s.busy = true) :
    clockEdge p s = .next (engineCycle p { s with rdata := p.heldValue s }) := by
  simp [clockEdge, hrst, hbusy, hostCycle_of_busy p hbusy]

/-- The engine waits in an ABSORB without `m_ack` (R249). -/
theorem engineCycle_waits {p : PortIn} {s : State} (hphase : s.phase = .absorb) (hack : p.mAck = false) :
    engineCycle p s = s := by
  simp [engineCycle, hphase, hack]

/-- With an honest collaborator the engine's part of any other cycle is its step (R82, R154). -/
theorem engineCycle_steps {p : PortIn} {s : State} (hhonest : p.honest s) (h : s.phase ≠ .absorb ∨ p.mAck = true) :
    engineCycle p s = engineStep s := by
  cases hphase : s.phase with
  | absorb =>
    have hack : p.mAck = true := h.resolve_left (not_not_intro hphase)
    simp [engineCycle, engineStep, absorbStep, hphase, hack, hhonest hack hphase]
  | idle => simp [engineCycle, hphase]
  | shift => simp [engineCycle, hphase]
  | final => simp [engineCycle, hphase]

/-- Settles O55: a requesting state is BUSY, so without `m_ack` the edge changes the host's value alone. -/
theorem imageRequestHeld : Obligations.ImageRequestHeld := by
  intro p q s t hinv hreq hrst hack hedge
  have hphase : s.phase = .absorb := of_decide_eq_true hreq
  have hbusy : s.busy = true := hinv.busy_of_running hphase (by decide)
  rw [clockEdge_busy hrst hbusy, engineCycle_waits (s := { s with rdata := p.heldValue s }) hphase hack] at hedge
  cases hedge
  exact ⟨hreq, rfl⟩

/-! ### The edge as a run of turns -/

/-- The host's turn in a cycle without reset. -/
def PortIn.hostTurns (p : PortIn) : List Turn := if p.hReq = true then [.host p.transaction] else []

/-- The engine's turn in a BUSY cycle without reset: none where an ABSORB waits for `m_ack`. -/
def PortIn.engineTurns (p : PortIn) (s : State) : List Turn :=
  if s.phase ≠ .absorb ∨ p.mAck = true then [.engine] else []

/-- A run's first turn. -/
theorem run_turn_cons {s t : State} {turn : Turn} {us : List Turn} (h : runTurn turn { s with turns := us } = .next t)
    (n : Nat) :
    Host.Core.run Sys2Proof.core (n + 1) { s with turns := turn :: us } = Host.Core.run Sys2Proof.core n t :=
  run_succ ((step_cons (s := { s with turns := turn :: us }) rfl).trans h) n

/-- The run of a cycle's turns begins with the host's part of the cycle. -/
theorem run_hostTurns_append (p : PortIn) {s t : State} {us ts : List Turn}
    (h : hostCycle p { s with turns := us ++ ts } = .next t) :
    Host.Core.run Sys2Proof.core (p.hostTurns ++ us).length { s with turns := p.hostTurns ++ us ++ ts } =
      Host.Core.run Sys2Proof.core us.length t := by
  unfold PortIn.hostTurns
  cases hreq : p.hReq with
  | false =>
    rw [hostCycle_of_no_request hreq] at h
    cases h
    rfl
  | true =>
    rw [hostCycle_of_request hreq] at h
    exact run_turn_cons h us.length

/-- With an honest collaborator the engine's part of a cycle is its step or a wait, as its turn is listed or not. -/
theorem engineCycle_cases {p : PortIn} {s : State} (hhonest : p.honest s) :
    (p.engineTurns s = [.engine] ∧ engineCycle p s = engineStep s) ∨
    (p.engineTurns s = [] ∧ engineCycle p s = s) := by
  by_cases h : s.phase ≠ .absorb ∨ p.mAck = true
  · exact .inl ⟨if_pos h, engineCycle_steps hhonest h⟩
  · obtain ⟨hphase, hack⟩ := not_or.mp h
    exact .inr ⟨if_neg h, engineCycle_waits (not_not.mp hphase) (Bool.eq_false_iff.mpr hack)⟩

/-- The engine's part of a BUSY cycle is the run of its turn, or of none. -/
theorem run_engineTurns {p : PortIn} {s : State} (hhonest : p.honest s) :
    Host.Core.run Sys2Proof.core (p.engineTurns s).length { s with turns := p.engineTurns s ++ s.turns } =
      .next (engineCycle p s) := by
  rcases engineCycle_cases hhonest with ⟨hturns, hcycle⟩ | ⟨hturns, hcycle⟩
  · rw [hturns, hcycle]
    exact run_turn_cons (us := s.turns) rfl 0
  · rw [hturns, hcycle]
    rfl

theorem engineCycle_rdata {p : PortIn} {s : State} (hhonest : p.honest s) : (engineCycle p s).rdata = s.rdata := by
  rcases engineCycle_cases hhonest with ⟨-, hcycle⟩ | ⟨-, hcycle⟩
  · obtain ⟨-, -, -, -, -, -, -, -, -, -, hrdata⟩ := engineStep_frame s
    rw [hcycle, hrdata]
  · rw [hcycle]

/-- An edge while idle is the run of the host's turn. -/
theorem clockEdge_idle_run {p : PortIn} {s : State} (hrst : p.rst = false) (hidle : s.busy = false) :
    ∃ t, clockEdge p s = .next t ∧
      Host.Core.run Sys2Proof.core p.hostTurns.length { s with turns := p.hostTurns ++ s.turns } = .next t ∧
      (p.hReq = true → p.hWe = false → t.rdata = (portOutputs p s).hRdata) := by
  obtain ⟨t, ht⟩ := hostCycle_next p s
  refine ⟨t, (clockEdge_idle hrst hidle).trans ht, ?_, ?_⟩
  · have hrun := run_hostTurns_append p (us := []) (ts := s.turns) ht
    rwa [List.append_nil] at hrun
  · intro hreq hwe
    rw [hostCycle_read hreq hwe] at ht
    cases ht
    rfl

/-- An edge while BUSY is the run of the host's turn and then the engine's. -/
theorem clockEdge_busy_run {p : PortIn} {s : State} (hhonest : p.honest s) (hrst : p.rst = false)
    (hbusy : s.busy = true) :
    ∃ t, clockEdge p s = .next t ∧
      Host.Core.run Sys2Proof.core (p.hostTurns ++ p.engineTurns s).length
        { s with turns := p.hostTurns ++ p.engineTurns s ++ s.turns } = .next t ∧
      (p.hReq = true → p.hWe = false → t.rdata = (portOutputs p s).hRdata) := by
  have hhonest' : p.honest { s with rdata := p.heldValue s } := hhonest
  refine ⟨_, clockEdge_busy hrst hbusy, ?_, ?_⟩
  · rw [run_hostTurns_append p (hostCycle_of_busy p hbusy)]
    exact run_engineTurns hhonest'
  · intro hreq hwe
    rw [engineCycle_rdata hhonest']
    exact if_pos ⟨hreq, hwe⟩

/-- Settles O54: a reset, an idle edge and a BUSY edge are each the run of their turns. -/
theorem clockEdgeRefinesSteps : Obligations.ClockEdgeRefinesSteps := by
  refine ⟨decode_transaction, ?_⟩
  intro p s us _ hhonest hus
  cases hrst : p.rst with
  | true =>
    rw [if_pos hrst] at hus
    subst hus
    exact ⟨applyReset s, clockEdge_reset hrst s, run_turn_cons (us := s.turns) rfl 0, nofun⟩
  | false =>
    rw [hrst, if_neg Bool.false_ne_true] at hus
    cases hbusy : s.busy with
    | false =>
      have hturns : us = p.hostTurns := by simpa [hbusy, PortIn.hostTurns] using hus
      obtain ⟨t, hedge, hrun, hread⟩ := clockEdge_idle_run hrst hbusy
      exact ⟨t, hedge, hturns ▸ hrun, fun _ => hread⟩
    | true =>
      have hturns : us = p.hostTurns ++ p.engineTurns s := by
        simpa [hbusy, PortIn.hostTurns, PortIn.engineTurns] using hus
      obtain ⟨t, hedge, hrun, hread⟩ := clockEdge_busy_run hhonest hrst hbusy
      exact ⟨t, hedge, hturns ▸ hrun, fun _ => hread⟩

end Sys2Proof.Machine
end

section
/-! The Range Validator (R100 to R108): its verdict in each case, the STATUS a VALIDATE leaves, and why a misaligned range is
no other command's error. -/

namespace Sys2Proof.Machine

/-! ### The verdict -/

theorem validate_of_illegal_width {w : BitVec 8} (hw : ¬ legalWidth w = true) (a b : Word) (ws : BitVec 8) :
    validate a b ws w = .err .invalidRegisterWidth := if_pos (Bool.eq_false_iff.mpr hw)

section
variable {w : BitVec 8} (hw : legalWidth w = true) (a b : Word) (ws : BitVec 8)
include hw

/-- With a legal width the validator passes the whole multiples of a word size other than 0 (R102, R105). -/
theorem validate_of_legal_width :
    validate a b ws w =
      if ws.toNat = 0 ∨ ¬ (ws.toNat : Int) ∣ (b.toNat : Int) - (a.toNat : Int) then .err .misalignedRange else .ok := by
  rw [validate, if_neg (by simp [hw])]
  by_cases h0 : ws = 0#8
  · rw [if_pos h0, if_pos (.inl (congrArg BitVec.toNat h0))]
  · have hpos : ws.toNat ≠ 0 := fun h => h0 (BitVec.eq_of_toNat_eq h)
    simp [h0, hpos]

theorem validate_eq_ok_iff :
    validate a b ws w = .ok ↔ ws.toNat ≠ 0 ∧ (ws.toNat : Int) ∣ (b.toNat : Int) - (a.toNat : Int) := by
  simp [validate_of_legal_width hw]

theorem validate_eq_misaligned_iff :
    validate a b ws w = .err .misalignedRange ↔
      ws.toNat = 0 ∨ ¬ (ws.toNat : Int) ∣ (b.toNat : Int) - (a.toNat : Int) := by
  simp [validate_of_legal_width hw, imp_iff_not_or]

end

/-- A length is no multiple of the word size where the range's ends have two residues (R102). -/
theorem not_dvd_length_iff (k a b : Nat) : ¬ (k : Int) ∣ (b : Int) - (a : Int) ↔ b % k ≠ a % k := by
  rw [← Nat.modEq_iff_dvd, Nat.ModEq, eq_comm]

/-- Settles O19: the width decides first, then a word size of 0, then divisibility, in each of its spellings. -/
theorem validatorDecides : Obligations.ValidatorDecides := by
  intro a b ws w
  rw [← legalWidth_iff w]
  refine ⟨fun hw => validate_of_illegal_width hw a b ws, ?_, ?_⟩
  · rintro hw rfl
    exact (validate_eq_misaligned_iff hw a b 0#8).mpr (.inl rfl)
  · intro hw hws
    have hpos : ws.toNat ≠ 0 := fun h => hws (BitVec.eq_of_toNat_eq h)
    have hmis := (validate_eq_misaligned_iff hw a b ws).trans (or_iff_right hpos)
    exact ⟨(validate_eq_ok_iff hw a b ws).trans (and_iff_right hpos), hmis, hmis.trans (not_dvd_length_iff _ _ _),
      Int.dvd_iff_tmod_eq_zero.symm.trans Int.dvd_iff_fmod_eq_zero⟩

/-! ### VALIDATE -/

/-- The code of STATUS.ERR for a verdict (R38, R107). -/
def Verdict.code : Verdict → BitVec 4
  | .ok => 0#4
  | .err e => e.code

theorem completeWith_eq_complete (v : Verdict) (s : State) : completeWith v s = complete v.code s := by
  cases v <;> rfl

/-- A command that completes while idle, without writing another register, leaves DONE with its code (R37, R38). -/
theorem complete_beginCommand_idle {s : State} (hidle : s.busy = false) (hs : s.status ∈ statusValues)
    (code : BitVec 4) :
    complete code (beginCommand s) = { s with status := 0x02#32 ||| (code.setWidth 32 <<< 4) } :=
  congrArg (fun st => { s with status := st }) (status_completed code s.status hs hidle)

theorem exec_validate_idle (ign : BitVec 24) {s : State} (hidle : s.busy = false) (hs : s.status ∈ statusValues) :
    exec (.validate ign) s = .next { s with status :=
      0x02#32 ||| ((validate s.startAddr s.endAddr s.valWsize s.regWidth).code.setWidth 32 <<< 4) } := by
  rw [exec, execValidate, hostWrite_idle hidle, validateCommand, completeWith_eq_complete,
    complete_beginCommand_idle hidle hs]

theorem valWsize_toNat (s : State) : s.valWsize.toNat = s.ctrl.toNat / 65536 % 256 := by
  simp [State.valWsize, Nat.shiftRight_eq_div_pow]

/-- Settles O20: STATUS is DONE with the verdict's code, and the verdict is read off the fields of CTRL. -/
theorem validateReportsVerdict : Obligations.ValidateReportsVerdict := by
  intro ign s hidle hs
  rw [exec_validate_idle ign hidle hs, ← width_eq, ← valWsize_toNat]
  split_ifs with hw hmis
  · rw [validate_of_legal_width ((legalWidth_width s).mpr hw), if_pos hmis]
    rfl
  · rw [validate_of_legal_width ((legalWidth_width s).mpr hw), if_neg hmis]
    rfl
  · rw [validate_of_illegal_width (mt (legalWidth_width s).mp hw)]
    rfl

/-! ### Misaligned ranges are VALIDATE's alone -/

/-- A COMPUTE starts with ERR clear, or is rejected for its width (R108, R150). -/
theorem computeCommand_err (s : State) : (computeCommand s).err = 0#4 ∨ (computeCommand s).err = 1#4 := by
  rw [computeCommand_eq]
  split
  · exact .inl ((startEngine_err _).trans (beginCommand_err s))
  · exact .inr (rejectCompute_err _ .invalidRegisterWidth)

theorem exec_compute_idle (ign : BitVec 24) {s : State} (hidle : s.busy = false) :
    exec (.compute ign) s = .next (computeCommand s) := by
  rw [exec, execCompute, hostWrite_idle hidle]

/-- Of the commands that set ERR, VALIDATE alone can set it to MISALIGNED_RANGE's code (R108, R212). -/
theorem dispatch_err_ne_misaligned {opc : BitVec 8} (h0 : opc ≠ 0#8) (h2 : opc ≠ 2#8) (s : State) :
    (dispatch opc s).err ≠ 2#4 := by
  rcases dispatch_cases opc s with ⟨h, -⟩ | ⟨-, e⟩ | ⟨h, -⟩ | ⟨-, e⟩ | ⟨-, -, -, -, e⟩
  · exact absurd h h0
  · rw [e]
    rcases computeCommand_err s with herr | herr <;> rw [herr] <;> decide
  · exact absurd h h2
  · rw [e, reflectCommand_err]
    decide
  · rw [e, illegalCommand_eq, complete_err]
    decide

/-- Settles O21: with word size 1 the verdict is the width's, COMPUTE's ERR follows from it, and every other command but
VALIDATE completes with a code of its own. -/
theorem computeNeverMisaligned : Obligations.ComputeNeverMisaligned := by
  refine ⟨?_, ?_, ?_, by decide⟩
  · intro a b w
    rw [validate_one]
    split <;> decide
  · intro ign s t hidle hexec
    rw [exec_compute_idle ign hidle] at hexec
    cases hexec
    exact computeCommand_err s
  · intro s t opc hacc h0 hstep herr
    rw [step_of_accepts hacc hstep] at herr
    by_contra h2
    exact dispatch_err_ne_misaligned h0 h2 (popTurn s) herr

end Sys2Proof.Machine
end

section
/-! The Bit Reflector (R120 to R125): the bits of the document's reflection and of the hardware's, the laws that follow from
them, and what a REFLECT leaves. -/

namespace Sys2Proof.Machine

/-! ### The document's reflection -/

/-- The whole sum sets each of the w result bits (R120). -/
theorem reflectDoc_testBit (v w j : Nat) :
    (reflectDoc v w).testBit j = (decide (j < w) && v.testBit (w - 1 - j)) := by
  simp [reflectDoc, reflectDocUpTo_bit]

theorem reflectDoc_lt (v w : Nat) : reflectDoc v w < 2 ^ w := by
  apply Nat.lt_pow_two_of_testBit
  intro j hj
  simp [reflectDoc_testBit, Nat.not_lt.mpr hj]

/-- The reflection reads value bits below the width alone (R121). -/
theorem reflectDoc_mod_two_pow (v w : Nat) : reflectDoc (v % 2 ^ w) w = reflectDoc v w := by
  apply Nat.eq_of_testBit_eq
  intro j
  rw [reflectDoc_testBit, reflectDoc_testBit, Nat.testBit_mod_two_pow]
  by_cases hj : j < w
  · simp [show w - 1 - j < w by omega]
  · simp [hj]

/-- A second reflection puts every bit below the width back (R124). -/
theorem reflectDoc_reflectDoc (v w : Nat) : reflectDoc (reflectDoc v w) w = v % 2 ^ w := by
  apply Nat.eq_of_testBit_eq
  intro j
  rw [reflectDoc_testBit, reflectDoc_testBit, Nat.testBit_mod_two_pow]
  by_cases hj : j < w
  · simp [show w - 1 - j < w by omega, show w - 1 - (w - 1 - j) = j by omega]
  · simp [hj]

/-- Settles O23: the reflection reads no bit at or above the width, and over 0 bits it is the empty sum. -/
theorem reflectorIgnoresHighBits : Obligations.ReflectorIgnoresHighBits :=
  ⟨fun v w => (reflectDoc_mod_two_pow v w).symm, fun _ => rfl⟩

/-! ### The hardware reflector -/

/-- The loop of R122 after all its passes; a source bit at or above 32 reads as 0. -/
theorem reflect_getLsbD (v : Word) (w j : Nat) :
    (reflect v w).getLsbD j = (decide (j < min w 32) && v.getLsbD (w - 1 - j)) :=
  reflectLoop_bit v w (min w 32) j (Nat.min_le_right w 32)

/-- REFL_OUT keeps the low 32 bits of the document's reflection (R122). -/
theorem reflect_toNat (v : Word) (w : Nat) : (reflect v w).toNat = reflectDoc v.toNat w % 2 ^ 32 := by
  apply Nat.eq_of_testBit_eq
  intro j
  rw [BitVec.testBit_toNat, reflect_getLsbD, Nat.testBit_mod_two_pow, reflectDoc_testBit, BitVec.testBit_toNat,
    ← Bool.and_assoc, ← Bool.decide_and]
  congr 1
  exact decide_eq_decide.mpr (lt_min_iff.trans and_comm)

theorem reflect_eq_ofNat (v : Word) (w : Nat) : reflect v w = BitVec.ofNat 32 (reflectDoc v.toNat w) :=
  BitVec.eq_of_toNat_eq (by rw [reflect_toNat, BitVec.toNat_ofNat])

/-- Up to 32 bits no bit of the document's reflection is lost (R122). -/
theorem reflect_toNat_of_le (v : Word) {w : Nat} (hw : w ≤ 32) : (reflect v w).toNat = reflectDoc v.toNat w := by
  rw [reflect_toNat]
  exact Nat.mod_eq_of_lt ((reflectDoc_lt v.toNat w).trans_le (Nat.pow_le_pow_right (by decide) hw))

/-- Settles O22: the two reflectors agree bit by bit, and the loop's test of its source bit against 32 is implied, since a
word has no bit there. -/
theorem reflectorIsTheDocuments : Obligations.ReflectorIsTheDocuments := by
  refine ⟨reflectDoc_testBit, fun v w hw => reflect_toNat_of_le v hw, fun v w _ => reflect_toNat v w, ?_⟩
  intro v w j _ hj
  rw [reflect_getLsbD]
  by_cases hsrc : w - 1 - j < 32
  · simp [hj, hsrc]
  · simp [BitVec.getLsbD_of_ge v (w - 1 - j) (Nat.not_lt.mp hsrc)]

/-! ### The laws of R124 -/

theorem reflect_zero (w : Nat) : reflect 0#32 w = 0#32 := by
  apply BitVec.eq_of_getLsbD_eq
  simp [reflect_getLsbD]

/-- The reflector moves bits, so it commutes with XOR. -/
theorem reflect_xor (a b : Word) (w : Nat) : reflect (a ^^^ b) w = reflect a w ^^^ reflect b w := by
  apply BitVec.eq_of_getLsbD_eq
  intro j _
  simp only [BitVec.getLsbD_xor, reflect_getLsbD, Bool.and_xor_distrib_left]

/-- A mask of w ones is its own reflection over w bits. -/
theorem reflect_mask {w : Nat} (hw : w ≤ 32) : reflect (mask w) w = mask w := by
  apply BitVec.eq_of_getLsbD_eq
  intro j hj32
  rw [reflect_getLsbD, mask_bit hw, mask_bit hw]
  by_cases hj : j < w
  · simp [hj, hj32, show w - 1 - j < w by omega]
  · simp [hj]

/-- Settles O24: the involution is the document's, and the complement law is the mask's reflection under XOR. -/
theorem reflectorLaws : Obligations.ReflectorLaws := by
  refine ⟨?_, by decide, by decide⟩
  intro v w hw
  refine ⟨?_, ?_, reflect_toNat_lt v hw, reflect_zero w⟩
  · rw [reflect_toNat_of_le _ hw, reflect_toNat_of_le _ hw, reflectDoc_reflectDoc]
  · intro _
    rw [reflect_xor, reflect_mask hw]

/-! ### REFLECT -/

theorem reflectWidth_toNat (s : State) : s.reflectWidth.toNat = s.reflWidth.toNat % 256 := by
  simp [State.reflectWidth]

/-- Settles O25: while idle the command completes with code 0, and REFL_OUT takes the hardware reflection, which is the
document's cut to 32 bits. -/
theorem reflectWritesReflOut : Obligations.ReflectWritesReflOut := by
  intro ign s hidle hs
  rw [exec, execReflect, hostWrite_idle hidle, reflectCommand_eq, complete_beginCommand_idle hidle hs, reflect_eq_ofNat,
    reflectWidth_toNat]
  rfl

end Sys2Proof.Machine
end

section
/-! The datapath and the document's algorithm (R140 to R149): each datapath function is the document's modulo 2^W, so the two
give one value for every byte list, and what that value depends on. -/

namespace Sys2Proof.Machine

/-! ### One byte -/

/-- The hardware reflects the byte as the document does (R151, R144). -/
theorem absorbed_toNat (refin : Bool) (b : Byte) :
    (if refin then reflect (b.setWidth 32) 8 else b.setWidth 32).toNat =
      if refin then reflectDoc b.toNat 8 else b.toNat := by
  have hb : (b.setWidth 32).toNat = b.toNat := BitVec.toNat_setWidth_of_le (by decide)
  cases refin with
  | false => exact hb
  | true => exact (reflect_toNat_of_le _ (by decide)).trans (by rw [hb]; rfl)

theorem absorbAcc_eq_xor_ofNat (w : Nat) (refin : Bool) (acc : Word) (b : Byte) :
    absorbAcc w refin acc b =
      acc ^^^ BitVec.ofNat 32 ((if refin then reflectDoc b.toNat 8 else b.toNat) * 2 ^ (w - 8)) := by
  unfold absorbAcc
  congr 1
  apply BitVec.eq_of_toNat_eq
  rw [BitVec.toNat_shiftLeft, absorbed_toNat, BitVec.toNat_ofNat, Nat.shiftLeft_eq]

/-- The byte enters both registers at the same bits (R147). -/
theorem absorb_mod {w : Nat} (hw : w ≤ 32) (refin : Bool) {reg : Nat} {acc : Word} (b : Byte)
    (h : reg % 2 ^ w = acc.toNat % 2 ^ w) :
    (reg ^^^ ((if refin then reflectDoc b.toNat 8 else b.toNat) <<< (w - 8))) % 2 ^ w =
      (absorbAcc w refin acc b).toNat % 2 ^ w := by
  rw [absorbAcc_eq_xor_ofNat, BitVec.toNat_xor, BitVec.toNat_ofNat, Nat.xor_mod_two_pow, Nat.xor_mod_two_pow, h,
    Nat.mod_mod_of_dvd _ (Nat.pow_dvd_pow 2 hw), Nat.shiftLeft_eq]

section
variable {w : Nat} (hpos : 1 ≤ w) (hw : w ≤ 32)
include hpos hw

/-- A shift keeps the two registers equal in their low W bits: they test the same bit (R147). -/
theorem shift_mod (polynomial : Word) {reg : Nat} {acc : Word} (h : reg % 2 ^ w = acc.toNat % 2 ^ w) :
    refShift w ((1 <<< w) ||| polynomial.toNat) reg % 2 ^ w = (shiftAcc w polynomial acc).toNat % 2 ^ w := by
  have hbit : (acc.toNat % 2 ^ w).testBit (w - 1) = acc.getLsbD (w - 1) := by
    rw [Nat.testBit_mod_two_pow, decide_eq_true (by omega), Bool.true_and, BitVec.testBit_toNat]
  rw [Nat.mod_eq_of_lt (shiftAcc_lt hw polynomial acc), shiftAcc_toNat hw, refShift_mod hpos, h, hbit, Nat.mul_mod_mod]

theorem repeat_shift_mod (polynomial : Word) (n : Nat) {reg : Nat} {acc : Word}
    (h : reg % 2 ^ w = acc.toNat % 2 ^ w) :
    Nat.repeat (refShift w ((1 <<< w) ||| polynomial.toNat)) n reg % 2 ^ w =
      (Nat.repeat (shiftAcc w polynomial) n acc).toNat % 2 ^ w := by
  induction n with
  | zero => exact h
  | succ n ih => exact shift_mod hpos hw polynomial ih

end

/-- The invariant of R147 along a byte list: the low W bits of the document's register are the hardware's. -/
theorem foldl_byte_mod {c : CrcConfig} (hpos : 1 ≤ c.width) (hw : c.width ≤ 32) (bytes : List Byte) {reg : Nat}
    {acc : Word} (h : reg % 2 ^ c.width = acc.toNat % 2 ^ c.width) :
    bytes.foldl (refByte c.width ((1 <<< c.width) ||| c.polynomial.toNat) c.refin) reg % 2 ^ c.width =
      (bytes.foldl (hwByte c) acc).toNat % 2 ^ c.width := by
  induction bytes generalizing reg acc with
  | nil => exact h
  | cons b rest ih => exact ih (repeat_shift_mod hpos hw c.polynomial 8 (absorb_mod hw c.refin b h))

/-! ### The final steps -/

theorem reflectOutput_toNat {w : Nat} (hw : w ≤ 32) (refout applyMode : Bool) (r : Word) :
    (reflectOutput w refout applyMode r).toNat = if refout && applyMode then reflectDoc r.toNat w else r.toNat := by
  unfold reflectOutput
  split
  · exact reflect_toNat_of_le r hw
  · rfl

/-- Steps 5 to 8 are the same on both registers (R147). -/
theorem finalAcc_toNat {w : Nat} (hw : w ≤ 32) (refout applyMode finalXor : Bool) (acc : Word) :
    (finalAcc w refout applyMode finalXor acc).toNat = refFinal w refout applyMode finalXor acc.toNat := by
  have hbase := reflectOutput_toNat hw refout applyMode (acc &&& mask w)
  rw [BitVec.toNat_and, mask_toNat hw] at hbase
  unfold finalAcc refFinal
  cases finalXor with
  | false => exact hbase.trans (Nat.xor_zero _).symm
  | true => rw [if_pos rfl, if_pos rfl, BitVec.toNat_xor, hbase, mask_toNat hw]

/-- The final steps read the low W bits alone (R145). -/
theorem refFinal_congr_mod {w : Nat} (refout applyMode finalXor : Bool) {reg reg' : Nat}
    (h : reg % 2 ^ w = reg' % 2 ^ w) :
    refFinal w refout applyMode finalXor reg = refFinal w refout applyMode finalXor reg' := by
  simp only [refFinal, Nat.and_two_pow_sub_one_eq_mod, h]

theorem refFinal_lt (w : Nat) (refout applyMode finalXor : Bool) (reg : Nat) :
    refFinal w refout applyMode finalXor reg < 2 ^ w := by
  have hpos := Nat.two_pow_pos w
  unfold refFinal
  rw [Nat.and_two_pow_sub_one_eq_mod]
  apply Nat.xor_lt_two_pow
  · split
    · exact reflectDoc_lt _ w
    · exact Nat.mod_lt _ hpos
  · split <;> omega

theorem finalAcc_lt {w : Nat} (hw : w ≤ 32) (refout applyMode finalXor : Bool) (acc : Word) :
    (finalAcc w refout applyMode finalXor acc).toNat < 2 ^ w := by
  rw [finalAcc_toNat hw]
  exact refFinal_lt w refout applyMode finalXor acc.toNat

/-! ### The whole algorithm -/

theorem crcRef_of_legal {c : CrcConfig} (hc : c.width = 8 ∨ c.width = 16 ∨ c.width = 32) (bytes : List Byte) :
    crcRef bytes c = .ok (refFinal c.width c.refout c.applyMode c.finalXor
      (bytes.foldl (refByte c.width ((1 <<< c.width) ||| c.polynomial.toNat) c.refin) c.seed.toNat)) :=
  if_pos hc

/-- Settles O34: the registers agree modulo 2^W from the seed on, and the final steps read no more than that. -/
theorem datapathMatchesReference : Obligations.DatapathMatchesReference := by
  intro bytes c hc
  have hpos : 1 ≤ c.width := by omega
  have hw : c.width ≤ 32 := by omega
  have hseed : c.seed.toNat % 2 ^ c.width = (initAcc c.width c.seed).toNat % 2 ^ c.width := by
    rw [initAcc_toNat hw, Nat.mod_mod]
  rw [crcRef_of_legal hc, crcHW, finalAcc_toNat hw, refFinal_congr_mod _ _ _ (foldl_byte_mod hpos hw bytes hseed)]

/-! ### What the value depends on -/

theorem crcHW_finalXor {c : CrcConfig} (hw : c.width ≤ 32) (bytes : List Byte) :
    (crcHW bytes { c with finalXor := true }).toNat =
      (crcHW bytes { c with finalXor := false }).toNat ^^^ (2 ^ c.width - 1) :=
  (BitVec.toNat_xor _ _).trans (by rw [mask_toNat hw]; rfl)

/-- Settles O39: the last XOR of the datapath is with 2^W - 1, and the document's value is the datapath's. -/
theorem finalXorComplements : Obligations.FinalXorComplements := by
  intro bytes c hc
  have hxor := crcHW_finalXor (c := c) (by omega) bytes
  refine ⟨(crcHW bytes { c with finalXor := false }).toNat, datapathMatchesReference bytes _ hc, ?_, hxor⟩
  rw [← hxor]
  exact datapathMatchesReference bytes _ hc

theorem and_mask_congr {w : Nat} (hw : w ≤ 32) {x y : Word} (h : x.toNat % 2 ^ w = y.toNat % 2 ^ w) :
    x &&& mask w = y &&& mask w :=
  BitVec.eq_of_toNat_eq (by rw [and_mask_toNat hw, and_mask_toNat hw, h])

/-- The datapath uses the polynomial and the seed under the mask of W ones only (R146). -/
theorem crcHW_congr_mask (bytes : List Byte) (c : CrcConfig) {polynomial seed : Word}
    (hpoly : polynomial &&& mask c.width = c.polynomial &&& mask c.width)
    (hseed : seed &&& mask c.width = c.seed &&& mask c.width) :
    crcHW bytes { c with polynomial := polynomial, seed := seed } = crcHW bytes c := by
  have hshift : shiftAcc c.width polynomial = shiftAcc c.width c.polynomial := by
    funext acc
    rw [shiftAcc, hpoly, shiftAcc]
  have hbyte : hwByte { c with polynomial := polynomial, seed := seed } = hwByte c := by
    funext acc b
    rw [hwByte, hshift, hwByte]
  rw [crcHW, hbyte, initAcc, hseed, crcHW, initAcc]

/-- Settles O40: words with equal low W bits are equal under the mask, and the document's value is the datapath's. -/
theorem onlyLowBitsMatter : Obligations.OnlyLowBitsMatter := by
  intro bytes c polynomial seed hc hpoly hseed
  have hw : c.width ≤ 32 := by omega
  have hcrc := crcHW_congr_mask bytes c (and_mask_congr hw hpoly) (and_mask_congr hw hseed)
  refine ⟨hcrc, ?_⟩
  rw [datapathMatchesReference bytes c hc, ← hcrc]
  exact datapathMatchesReference bytes _ hc

/-- REFOUT and the mode act through their conjunction only, in the datapath and in the document (R148). -/
theorem crc_congr_refout_and_mode (bytes : List Byte) (c : CrcConfig) {refout applyMode : Bool}
    (h : (refout && applyMode) = (c.refout && c.applyMode)) :
    crcHW bytes { c with refout := refout, applyMode := applyMode } = crcHW bytes c ∧
      crcRef bytes { c with refout := refout, applyMode := applyMode } = crcRef bytes c := by
  constructor
  · simp only [crcHW, finalAcc, reflectOutput, h]
    rfl
  · simp only [crcRef, refFinal, h]

/-- Settles O41: a conjunction with one flag 0 is 0, whatever the other flag. -/
theorem literalModeIgnoresRefout : Obligations.LiteralModeIgnoresRefout := by
  intro bytes c b
  refine ⟨fun hmode => ?_, fun hrefout => ?_⟩
  · exact crc_congr_refout_and_mode (applyMode := c.applyMode) bytes c (by simp [hmode])
  · exact crc_congr_refout_and_mode (refout := c.refout) bytes c (by simp [hrefout])

end Sys2Proof.Machine
end

section
/-! The COMPUTE command's acceptance and the engine's steps (R150 to R154), each as the exact next state. -/

namespace Sys2Proof.Machine

/-! ### Acceptance -/

theorem exec_compute_legal (ign : BitVec 24) {s : State} (hidle : s.busy = false)
    (hw : legalWidth s.regWidth = true) : exec (.compute ign) s = .next (startEngine (beginCommand s)) := by
  rw [exec_compute_idle ign hidle, computeCommand_eq, if_pos hw]

theorem exec_compute_illegal (ign : BitVec 24) {s : State} (hidle : s.busy = false)
    (hw : ¬ legalWidth s.regWidth = true) :
    exec (.compute ign) s = .next (rejectCompute .invalidRegisterWidth (beginCommand s)) := by
  rw [exec_compute_idle ign hidle, computeCommand_eq, if_neg hw]

/-- A rejected COMPUTE completes as every command does, with RESULT cleared (R150). -/
theorem rejectCompute_eq (e : ErrorCode) (s : State) :
    rejectCompute e s = { complete e.code s with result := 0#32 } := rfl

/-- Settles O26: an illegal width is rejected, and from an idle state the rejection leaves DONE with code 1. -/
theorem computeRejectsIllegalWidth : Obligations.ComputeRejectsIllegalWidth := by
  intro ign s hidle hs hw
  rw [← width_eq] at hw
  rw [exec_compute_illegal ign hidle (mt (legalWidth_width s).mp hw), rejectCompute_eq,
    complete_beginCommand_idle hidle hs]
  rfl

theorem initAcc_eq_ofNat {w : Nat} (hw : w ≤ 32) (seed : Word) :
    initAcc w seed = BitVec.ofNat 32 (seed.toNat % 2 ^ w) := by
  rw [← initAcc_toNat hw, BitVec.ofNat_toNat, BitVec.setWidth_eq]

/-- Settles O27: a legal width starts the engine, with the masked seed and STATUS BUSY alone. -/
theorem computeStartsEngine : Obligations.ComputeStartsEngine := by
  intro ign s W hidle hs hW hlegal
  rw [← width_eq] at hW
  subst hW
  rw [exec_compute_legal ign hidle ((legalWidth_width s).mpr hlegal), ← initAcc_eq_ofNat (by omega), ← nextPhase,
    ← status_started s.status hs]
  rfl

/-! ### The engine's step by phase -/

section
variable {s : State}

theorem engineStep_idle (hp : s.phase = .idle) : engineStep s = s := by
  simp [engineStep, hp]

theorem engineStep_absorb (hp : s.phase = .absorb) {b : Byte} (hb : Memory.read s.image s.cur = some b) :
    engineStep s = absorbByte b s := by
  simp [engineStep, hp, absorbStep, hb]

theorem engineStep_absorb_waits (hp : s.phase = .absorb) (hb : Memory.read s.image s.cur = none) :
    engineStep s = s := by
  simp [engineStep, hp, absorbStep, hb]

theorem engineStep_final (hp : s.phase = .final) : engineStep s = finalStep s := by
  simp [engineStep, hp]

/-- The count reaches 0 in a byte's last shift (R152). -/
theorem engineStep_last_shift (hp : s.phase = .shift) (hl : s.left = 1#4) :
    engineStep s = nextByte (shiftOnce s) := by
  simp [engineStep, hp, shiftStep, hl]

theorem engineStep_shift (hp : s.phase = .shift) (hl : s.left ≠ 1#4) : engineStep s = shiftOnce s := by
  have hleft : ∀ l : BitVec 4, l ≠ 1#4 → l - 1#4 ≠ 0#4 := by decide
  simp [engineStep, hp, shiftStep, hleft s.left hl]

end

/-- Settles O31: the engine's step in IDLE is the state itself. -/
theorem idleEngineHasNoStep : Obligations.IdleEngineHasNoStep := by
  intro s ts hturn hp
  rw [step_engineMoves hturn, engineStep_idle (s := { s with turns := ts }) hp]

/-- Settles O28: the step's writes are `absorbByte`'s, whose accumulator is the document's expression on the byte. -/
theorem absorbStepPlacesByte : Obligations.AbsorbStepPlacesByte := by
  rintro s ts W b hturn hp hW - hb
  rw [← width_eq] at hW
  subst hW
  rw [step_engineMoves hturn, engineStep_absorb (s := { s with turns := ts }) hp hb, ← absorbAcc_eq_xor_ofNat]
  rfl

/-- Settles O29: the accumulator is the datapath's shift in both cases of the count. -/
theorem shiftStepDivides : Obligations.ShiftStepDivides := by
  intro s ts W hturn hp hW hlegal
  rw [← width_eq] at hW
  subst hW
  refine ⟨shiftAcc s.width s.poly s.acc, shiftAcc_toNat (by omega) s.poly s.acc, fun hl => ?_, fun hl => ?_⟩
  · have hzero : s.left - 1#4 = 0#4 := by rw [hl]; rfl
    rw [step_engineMoves hturn, engineStep_last_shift (s := { s with turns := ts }) hp hl, ← hzero]
    rfl
  · rw [step_engineMoves hturn, engineStep_shift (s := { s with turns := ts }) hp hl]
    rfl

/-! ### The FINAL step's result -/

/-- The datapath's result with the document's steps 5 to 7 written on the masked accumulator (R153). -/
theorem finalAcc_eq_ofNat {w : Nat} (hw : w ≤ 32) (refout applyMode finalXor : Bool) (acc : Word) :
    finalAcc w refout applyMode finalXor acc = BitVec.ofNat 32
      ((if refout = true ∧ applyMode = true then reflectDoc (acc.toNat % 2 ^ w) w else acc.toNat % 2 ^ w) ^^^
        (if finalXor then 2 ^ w - 1 else 0)) := by
  apply BitVec.eq_of_toNat_eq
  rw [← Nat.and_two_pow_sub_one_eq_mod]
  simp only [← Bool.and_eq_true]
  rw [← refFinal, BitVec.toNat_ofNat, finalAcc_toNat hw,
    Nat.mod_eq_of_lt ((refFinal_lt _ _ _ _ _).trans_le (Nat.pow_le_pow_right (by decide) hw))]

/-- Settles O30: the step's writes are `finalStep`'s, whose RESULT is the document's expression on the accumulator. -/
theorem finalStepCompletes : Obligations.FinalStepCompletes := by
  intro s ts W hturn hp hs hW hlegal
  rw [← width_eq] at hW
  subst hW
  rw [step_engineMoves hturn, engineStep_final (s := { s with turns := ts }) hp, ← finalAcc_eq_ofNat (by omega),
    ← status_finished s.status hs]
  rfl

/-- Settles O38: the final steps give W bits at most, in FINAL and over a byte list, and a rejection clears RESULT. -/
theorem resultBelowWidth : Obligations.ResultBelowWidth := by
  refine ⟨?_, ?_, ?_⟩
  · intro s t ts hturn hp hw hstep
    have hle : s.width ≤ 32 := by have := (legalWidth_width s).mp hw; omega
    rw [step_engineMoves hturn, engineStep_final (s := { s with turns := ts }) hp] at hstep
    cases hstep
    exact finalAcc_lt hle s.refout s.applyMode s.finalXor s.acc
  · intro bytes c hc
    exact finalAcc_lt (by omega) c.refout c.applyMode c.finalXor _
  · intro ign s t hidle hw hexec
    rw [exec_compute_illegal ign hidle (Bool.eq_false_iff.mp hw)] at hexec
    cases hexec
    rfl

end Sys2Proof.Machine
end

section
/-! Whole computations (R154 to R162).  While BUSY the host reaches no register of the engine, so a run of turns is the
iteration of the engine's step by the number of engine turns; over n readable bytes that iteration is in FINAL after 9n
steps, with the datapath's accumulator, and it never reads what the claims leave free. -/

namespace Sys2Proof.Machine

/-! ### Nine engine steps per byte -/

/-- The shifts of a byte before its last, from the eight an ABSORB leaves (R152). -/
theorem iterate_engineStep_shift {s : State} (hp : s.phase = .shift) (hl : s.left = 8#4) {n : Nat} (hn : n ≤ 7) :
    engineStep^[n] s =
      { s with acc := Nat.repeat (shiftAcc s.width s.poly) n s.acc, left := 8#4 - BitVec.ofNat 4 n } := by
  induction n with
  | zero =>
    cases s
    subst hl
    rfl
  | succ n ih =>
    have hcount : ∀ m < 7, 8#4 - BitVec.ofNat 4 m ≠ 1#4 ∧
        8#4 - BitVec.ofNat 4 m - 1#4 = 8#4 - BitVec.ofNat 4 (m + 1) := by decide
    obtain ⟨hmore, hnext⟩ := hcount n (by omega)
    rw [Function.iterate_succ_apply', ih (by omega), engineStep_shift (by exact hp) (by exact hmore), ← hnext]
    rfl

/-- A byte's ABSORB and eight SHIFTs: `hwByte` on the accumulator, and the cursor one further (R151, R152). -/
theorem iterate_engineStep_byte {s : State} (hp : s.phase = .absorb) {b : Byte}
    (hb : Memory.read s.image s.cur = some b) :
    engineStep^[9] s = { s with
      acc := hwByte s.crcConfig s.acc b
      left := 0#4
      cur := s.cur + 1#32
      phase := nextPhase (s.cur + 1#32) s.endAddr } := by
  have hzero : 8#4 - BitVec.ofNat 4 7 - 1#4 = 0#4 := rfl
  rw [Function.iterate_succ_apply, engineStep_absorb hp hb, Function.iterate_succ_apply',
    iterate_engineStep_shift (s := absorbByte b s) rfl rfl le_rfl, engineStep_last_shift rfl rfl, ← hzero]
  rfl

/-- The engine's steps over the range from the cursor on, up to FINAL: the datapath's fold over its bytes (R160). -/
theorem iterate_engineStep_bytes (bytes : List Byte) {s : State} (hp : s.phase = nextPhase s.cur s.endAddr)
    (hbytes : Memory.readRange s.image s.cur (s.endAddr.toNat - s.cur.toNat) = some bytes) :
    ∃ c l, engineStep^[9 * bytes.length] s =
      { s with acc := bytes.foldl (hwByte s.crcConfig) s.acc, cur := c, left := l, phase := .final } := by
  induction bytes generalizing s with
  | nil =>
    have hlen := Memory.readRange_length hbytes
    rw [nextPhase, if_neg (by rw [List.length_nil] at hlen; omega)] at hp
    refine ⟨s.cur, s.left, ?_⟩
    cases s
    subst hp
    rfl
  | cons b rest ih =>
    have hlen := Memory.readRange_length hbytes
    rw [List.length_cons] at hlen
    have hlt : s.cur.toNat < s.endAddr.toNat := by omega
    have hnext := add_one_toNat hlt
    rw [← hlen] at hbytes
    obtain ⟨b', rest', hb, hrest, heq⟩ := Memory.readRange_succ hbytes
    cases heq
    rw [List.length_cons, Nat.mul_succ, Function.iterate_add_apply,
      iterate_engineStep_byte (hp.trans (nextPhase_eq_absorb.mpr hlt)) hb]
    refine ih rfl ?_
    show Memory.readRange s.image (s.cur + 1#32) (s.endAddr.toNat - (s.cur + 1#32).toNat) = some rest
    rw [hnext, show s.endAddr.toNat - (s.cur.toNat + 1) = rest.length by omega]
    exact hrest

/-- On its way to FINAL the engine is never in IDLE and writes neither STATUS nor RESULT (R153, R154). -/
theorem iterate_engineStep_before_final {s : State} {n : Nat} (hn : (engineStep^[n] s).phase = .final) :
    ∀ k ≤ n, (engineStep^[k] s).phase ≠ .idle ∧ (engineStep^[k] s).status = s.status ∧
      (engineStep^[k] s).result = s.result := by
  induction n generalizing s with
  | zero =>
    intro k hk
    obtain rfl := Nat.le_zero.mp hk
    change s.phase = .final at hn
    exact ⟨by rw [Function.iterate_zero_apply, hn]; decide, rfl, rfl⟩
  | succ n ih =>
    have hlater := ih (s := engineStep s) hn
    have hrunning : (engineStep s).phase ≠ .idle := (hlater 0 (Nat.zero_le n)).1
    have hidle : s.phase ≠ .idle := fun h => hrunning (by rw [engineStep_idle h, h])
    have hfinal : s.phase ≠ .final := fun h => hrunning (by rw [engineStep_final h, finalStep_phase])
    obtain ⟨hresult, hstatus⟩ := engineStep_writes_only_in_final s hfinal
    rintro (_ | k) hk
    · exact ⟨hidle, rfl, rfl⟩
    · obtain ⟨hphase, hst, hres⟩ := hlater k (Nat.le_of_succ_le_succ hk)
      exact ⟨hphase, hst.trans hstatus, hres.trans hresult⟩

/-! ### Runs while BUSY -/

/-- The engine reads neither of the model's own fields. -/
theorem engineStep_with_turns_rdata (s : State) (ts : List Turn) (v : Word) :
    engineStep { s with turns := ts, rdata := v } = { engineStep s with turns := ts, rdata := v } := by
  rcases engineStep_cases s with ⟨hp, e⟩ | ⟨hp, hb, e⟩ | ⟨hp, b, hb, e⟩ | ⟨hp, hl, e⟩ | ⟨hp, hl, e⟩ | ⟨hp, e⟩ <;> rw [e]
  · exact engineStep_idle hp
  · exact engineStep_absorb_waits hp hb
  · exact engineStep_absorb (s := { s with turns := ts, rdata := v }) hp hb
  · exact engineStep_last_shift hp hl
  · exact engineStep_shift hp hl
  · exact engineStep_final hp

theorem iterate_engineStep_with_turns_rdata (n : Nat) (s : State) (ts : List Turn) (v : Word) :
    engineStep^[n] { s with turns := ts, rdata := v } = { engineStep^[n] s with turns := ts, rdata := v } := by
  induction n with
  | zero => rfl
  | succ n ih =>
    rw [Function.iterate_succ_apply', ih, engineStep_with_turns_rdata, ← Function.iterate_succ_apply' engineStep]

/-- While BUSY a host word changes at most the value the host holds (R190, R192). -/
theorem exec_busy (w : HostWord) {s : State} (hbusy : s.busy = true) :
    ∃ v, exec (decode w) s = .next { s with rdata := v } := by
  obtain ⟨t, h⟩ := runTurn_next (.host w) s
  refine ⟨t.rdata, h.trans ?_⟩
  rcases exec_host_cases h with ⟨idx, -, -, -, rfl⟩ | ⟨-, rfl⟩ | ⟨hidle, -⟩ | ⟨hidle, -⟩
  · rfl
  · rfl
  · rw [hbusy] at hidle; cases hidle
  · rw [hbusy] at hidle; cases hidle

theorem noReset_append {ts us : List Turn} : noReset (ts ++ us) = true ↔ noReset ts = true ∧ noReset us = true := by
  simp [noReset]

theorem noReset_singleton {turn : Turn} : noReset [turn] = true ↔ turn ≠ .reset := by
  simp [noReset]

theorem engineTurns_append (ts us : List Turn) : engineTurns (ts ++ us) = engineTurns us + engineTurns ts := by
  rw [engineTurns, List.countP_append, Nat.add_comm, ← engineTurns, ← engineTurns]

theorem engineTurns_singleton_le (turn : Turn) : engineTurns [turn] ≤ 1 := List.countP_le_length

/-- A step while BUSY: the engine's, if the turn is the engine's, and at most the host's value beside it. -/
theorem step_busy {turn : Turn} (hturn : turn ≠ .reset) (ts : List Turn) {s : State} (hbusy : s.busy = true) :
    ∃ v, step { s with turns := turn :: ts } =
      .next { engineStep^[engineTurns [turn]] s with turns := ts, rdata := v } := by
  rw [step_cons (s := { s with turns := turn :: ts }) rfl]
  cases turn with
  | reset => exact absurd rfl hturn
  | engine => exact ⟨s.rdata, congrArg _ (engineStep_with_turns_rdata s ts s.rdata)⟩
  | host w => exact exec_busy w (s := { s with turns := ts }) hbusy

/-- A run without reset of a block that stays BUSY over its engine turns: the engine's steps, and at most the host's value
beside them. -/
theorem run_while_busy {ts : List Turn} (hnr : noReset ts = true) (rest : List Turn) (m : Nat) {s : State}
    (hbusy : ∀ k ≤ engineTurns ts, (engineStep^[k] s).busy = true) :
    ∃ v, Host.Core.run Sys2Proof.core (m + ts.length) { s with turns := ts ++ rest } =
      Host.Core.run Sys2Proof.core m { engineStep^[engineTurns ts] s with turns := rest, rdata := v } := by
  induction ts generalizing s with
  | nil => exact ⟨s.rdata, rfl⟩
  | cons turn ts ih =>
    obtain ⟨hturn, hnr⟩ := (noReset_append (ts := [turn])).mp hnr
    have hcount : engineTurns (turn :: ts) = engineTurns ts + engineTurns [turn] := engineTurns_append [turn] ts
    obtain ⟨v, hstep⟩ := step_busy (noReset_singleton.mp hturn) (ts ++ rest) (hbusy 0 (Nat.zero_le _))
    have hrest (k : Nat) := iterate_engineStep_with_turns_rdata k (engineStep^[engineTurns [turn]] s) rest v
    obtain ⟨v', hrun⟩ := ih hnr (s := { engineStep^[engineTurns [turn]] s with turns := rest, rdata := v }) fun k hk => by
      rw [hrest, ← Function.iterate_add_apply]
      exact hbusy _ (by omega)
    rw [hrest, ← Function.iterate_add_apply, ← hcount] at hrun
    exact ⟨v', (run_succ hstep _).trans hrun⟩

/-! ### From a COMPUTE's acceptance to its completion -/

section
variable {s : State} {bytes : List Byte} (hbytes : s.rangeBytes = some bytes)
include hbytes

theorem compute_reaches_final : ∃ c l, engineStep^[9 * bytes.length] (startEngine (beginCommand s)) =
    { startEngine (beginCommand s) with
      acc := bytes.foldl (hwByte s.crcConfig) (initAcc s.width s.seed), cur := c, left := l, phase := .final } :=
  iterate_engineStep_bytes bytes rfl hbytes

theorem compute_before_final (hs : s.status ∈ statusValues) {k : Nat} (hk : k ≤ 9 * bytes.length) :
    (engineStep^[k] (startEngine (beginCommand s))).phase ≠ .idle ∧
    (engineStep^[k] (startEngine (beginCommand s))).status = 0x01#32 ∧
    (engineStep^[k] (startEngine (beginCommand s))).result = s.result := by
  obtain ⟨c, l, hfinal⟩ := compute_reaches_final hbytes
  obtain ⟨hphase, hstatus, hresult⟩ := iterate_engineStep_before_final (by rw [hfinal]) k hk
  exact ⟨hphase, hstatus.trans (status_started s.status hs), hresult⟩

theorem compute_busy_before_final (hs : s.status ∈ statusValues) {k : Nat} (hk : k ≤ 9 * bytes.length) :
    (engineStep^[k] (startEngine (beginCommand s))).busy = true := by
  obtain ⟨-, hstatus, -⟩ := compute_before_final hbytes hs hk
  rw [State.busy, hstatus]
  rfl

end

/-- Settles O36: up to 9n engine turns the block is BUSY, so the run is the engine's, which is on its way to FINAL. -/
theorem computeStillRunningBefore : Obligations.ComputeStillRunningBefore := by
  intro ign s s0 bytes ts hidle hs hw hbytes hexec hnr hcount
  rw [exec_compute_legal ign hidle hw] at hexec
  cases hexec
  have hle : engineTurns ts ≤ 9 * bytes.length := Nat.le_of_lt_succ hcount
  obtain ⟨v, hrun⟩ := run_while_busy hnr [] 0 fun k hk => compute_busy_before_final hbytes hs (hk.trans hle)
  rw [List.append_nil, Nat.zero_add] at hrun
  obtain ⟨hphase, hstatus, hresult⟩ := compute_before_final hbytes hs hle
  exact ⟨_, hrun, hstatus, hphase, hresult⟩

/-- Settles O35: 9n engine turns lead to FINAL with the datapath's accumulator, and the last turn is the FINAL step. -/
theorem computeRunGivesReference : Obligations.ComputeRunGivesReference := by
  intro ign s s0 bytes ts hidle hs hw hbytes hexec hnr hcount hlast
  rw [exec_compute_legal ign hidle hw] at hexec
  cases hexec
  obtain ⟨ts, rfl⟩ := List.getLast?_eq_some_iff.mp hlast
  have hnine : engineTurns ts = 9 * bytes.length := by
    rw [engineTurns_append, computeSteps, Nat.add_comm] at hcount
    exact Nat.add_right_cancel hcount
  obtain ⟨hnr, -⟩ := noReset_append.mp hnr
  obtain ⟨v, hrun⟩ := run_while_busy hnr [.engine] 1 fun k hk =>
    compute_busy_before_final hbytes hs (hk.trans hnine.le)
  obtain ⟨c, l, hfinal⟩ := compute_reaches_final hbytes
  rw [hnine, hfinal, Nat.add_comm] at hrun
  rw [List.length_append, List.length_singleton]
  have hstarted : (startEngine (beginCommand s)).status ∈ statusValues := by
    rw [startEngine_status, beginCommand_status, status_started s.status hs]
    decide
  exact ⟨_, _, hrun, datapathMatchesReference bytes s.crcConfig ((legalWidth_width s).mp hw), rfl,
    status_finished _ hstarted, rfl, rfl, rfl, rfl, rfl, rfl, rfl, rfl, rfl, rfl, rfl⟩

/-! ### Two computations with equal inputs -/

/-- A completed run is the engine's steps by its engine turns, and the last of them is the first to leave BUSY 0. -/
theorem CompletesUnder.eq_iterate {ts : List Turn} (hnr : noReset ts = true) {s t : State} (h : CompletesUnder s ts t) :
    (∃ v, t = { engineStep^[engineTurns ts] s with turns := [], rdata := v }) ∧
      ∀ k < engineTurns ts, (engineStep^[k] s).busy = true := by
  obtain ⟨hrun, -, hbusy⟩ := h
  induction ts generalizing s with
  | nil =>
    cases hrun
    exact ⟨⟨s.rdata, rfl⟩, fun k hk => absurd hk (Nat.not_lt_zero k)⟩
  | cons turn ts ih =>
    obtain ⟨hturn, hnr⟩ := (noReset_append (ts := [turn])).mp hnr
    have hcount : engineTurns (turn :: ts) = engineTurns ts + engineTurns [turn] := engineTurns_append [turn] ts
    have hs : s.busy = true := hbusy 0 { s with turns := turn :: ts } (Nat.succ_pos _) rfl
    obtain ⟨v, hstep⟩ := step_busy (noReset_singleton.mp hturn) ts hs
    have hrest (k : Nat) := iterate_engineStep_with_turns_rdata k (engineStep^[engineTurns [turn]] s) ts v
    obtain ⟨⟨v', ht⟩, hlater⟩ := ih hnr (s := { engineStep^[engineTurns [turn]] s with turns := ts, rdata := v })
      ((run_succ hstep _).symm.trans hrun)
      fun k u hk hu => hbusy (k + 1) u (Nat.succ_lt_succ hk) ((run_succ hstep k).trans hu)
    rw [hrest, ← Function.iterate_add_apply, ← hcount] at ht
    refine ⟨⟨v', ht⟩, fun k hk => ?_⟩
    have hone := engineTurns_singleton_le turn
    cases k with
    | zero => exact hs
    | succ k =>
      have hbusy := hlater (k + 1 - engineTurns [turn]) (by omega)
      rw [hrest, ← Function.iterate_add_apply, Nat.sub_add_cancel (by omega)] at hbusy
      exact hbusy

/-- Two states in one computation: completed with one outcome, or BUSY and equal in all that the engine reads. -/
def SameComputation (s s' : State) : Prop :=
  (s.phase = .idle ∧ s'.phase = .idle ∧ s.status = s'.status ∧ s.result = s'.result) ∨
  (s.busy = true ∧ ∃ r i w o ts v, s' =
    { s with result := r, reflIn := i, reflWidth := w, reflOut := o, turns := ts, rdata := v })

theorem SameComputation.status_eq {s s' : State} (h : SameComputation s s') : s.status = s'.status := by
  rcases h with ⟨-, -, hstatus, -⟩ | ⟨-, r, i, w, o, ts, v, rfl⟩
  · exact hstatus
  · rfl

theorem SameComputation.result_eq {s s' : State} (h : SameComputation s s') (hidle : s.busy = false) :
    s.result = s'.result := by
  rcases h with ⟨-, -, -, hresult⟩ | ⟨hbusy, -⟩
  · exact hresult
  · rw [hidle] at hbusy
    cases hbusy

/-- FINAL makes the outcomes equal, and every other step of the engine keeps what it reads equal. -/
theorem SameComputation.after_engineStep {s s' : State} (h : SameComputation s s') :
    SameComputation (engineStep s) (engineStep s') := by
  rcases h with ⟨hp, hp', hout⟩ | ⟨hbusy, r, i, w, o, ts, v, rfl⟩
  · rw [engineStep_idle hp, engineStep_idle hp']
    exact .inl ⟨hp, hp', hout⟩
  · rcases engineStep_cases s with ⟨hp, e⟩ | ⟨hp, hb, e⟩ | ⟨hp, b, hb, e⟩ | ⟨hp, hl, e⟩ | ⟨hp, hl, e⟩ | ⟨hp, e⟩ <;> rw [e]
    · exact .inr ⟨hbusy, _, _, _, _, _, _, engineStep_idle hp⟩
    · exact .inr ⟨hbusy, _, _, _, _, _, _, engineStep_absorb_waits hp hb⟩
    · exact .inr ⟨hbusy, r, i, w, o, ts, v, engineStep_absorb (by exact hp) hb⟩
    · exact .inr ⟨hbusy, r, i, w, o, ts, v, engineStep_last_shift (by exact hp) hl⟩
    · exact .inr ⟨hbusy, r, i, w, o, ts, v, engineStep_shift (by exact hp) hl⟩
    · rw [engineStep_final (by exact hp)]
      exact .inl ⟨rfl, rfl, rfl, rfl⟩

theorem SameComputation.after_steps {s s' : State} (h : SameComputation s s') (n : Nat) :
    SameComputation (engineStep^[n] s) (engineStep^[n] s') := by
  induction n with
  | zero => exact h
  | succ n ih =>
    rw [Function.iterate_succ_apply', Function.iterate_succ_apply']
    exact ih.after_engineStep

/-- COMPUTEs with equal operands are one computation from their acceptance on (R150). -/
theorem sameComputation_of_equal_inputs {s s' : State} (hs : Inv s) (hs' : Inv s') (hidle : s.busy = false)
    (hidle' : s'.busy = false) (hctrl : s.ctrl = s'.ctrl) (hpoly : s.poly = s'.poly) (hseed : s.seed = s'.seed)
    (hstart : s.startAddr = s'.startAddr) (hend : s.endAddr = s'.endAddr) (himage : s.image = s'.image) :
    SameComputation (computeCommand s) (computeCommand s') := by
  have hregWidth : s.regWidth = s'.regWidth := congrArg (BitVec.extractLsb' 0 8) hctrl
  rw [computeCommand_eq, computeCommand_eq, ← hregWidth]
  split
  · refine .inr ⟨startEngine_busy _, s'.result, s'.reflIn, s'.reflWidth, s'.reflOut, s'.turns, s'.rdata, ?_⟩
    have hstatus := (status_started _ hs.status_value).trans (status_started _ hs'.status_value).symm
    have hwidth : s.width = s'.width := congrArg BitVec.toNat hregWidth
    simp [startEngine, hctrl, hpoly, hseed, hstart, hend, himage, hwidth, hstatus]
  · refine .inl ⟨hs.idle_of_not_busy hidle, hs'.idle_of_not_busy hidle', ?_, rfl⟩
    exact (status_completed 1#4 _ hs.status_value hidle).trans (status_completed 1#4 _ hs'.status_value hidle').symm

/-- Settles O37: both runs are iterations of the engine's step, which leaves BUSY 0 in both after the same number. -/
theorem equalInputsEqualResults : Obligations.EqualInputsEqualResults := by
  intro ign ign' s s' s0 s0' t t' ts ts' hs hs' hidle hidle' hctrl hpoly hseed hstart hend himage hexec hexec' hnr hnr'
    hrun hrun'
  rw [exec_compute_idle ign hidle] at hexec
  cases hexec
  rw [exec_compute_idle ign' hidle'] at hexec'
  cases hexec'
  have hsame := sameComputation_of_equal_inputs hs hs' hidle hidle' hctrl hpoly hseed hstart hend himage
  have hbusy (k : Nat) := busy_congr (hsame.after_steps k).status_eq
  obtain ⟨⟨v, rfl⟩, hbefore⟩ := hrun.eq_iterate hnr
  obtain ⟨⟨v', rfl⟩, hbefore'⟩ := hrun'.eq_iterate hnr'
  obtain ⟨-, hdone, -⟩ := hrun
  obtain ⟨-, hdone', -⟩ := hrun'
  change (engineStep^[engineTurns ts] (computeCommand s)).busy = false at hdone
  change (engineStep^[engineTurns ts'] (computeCommand s')).busy = false at hdone'
  have heq : engineTurns ts = engineTurns ts' := by
    apply le_antisymm <;> by_contra hlt
    · rw [← hbusy, hbefore _ (Nat.lt_of_not_le hlt)] at hdone'
      cases hdone'
    · rw [hbusy, hbefore' _ (Nat.lt_of_not_le hlt)] at hdone
      cases hdone
  have hdoneSame := hsame.after_steps (engineTurns ts)
  rw [← heq]
  exact ⟨hdoneSame.result_eq hdone, hdoneSame.status_eq⟩

end Sys2Proof.Machine
end

section
/-! The host's access to the registers (R83, R190 to R193, R196): what a read returns, what a write stores while idle, a
command as a write to CMD, and who writes the configuration, so that a computation keeps it while BUSY. -/

namespace Sys2Proof.Machine

/-! ### Reads and stores by index -/

theorem exec_regRead (idx : BitVec 4) (data : Word) (s : State) :
    exec (.regRead idx data) s = .next { s with rdata := readReg (regOf idx) s } := rfl

theorem exec_regWrite_store {idx : BitVec 4} (h5 : idx ≠ 5#4) (data : Word) {s : State} (hidle : s.busy = false) :
    exec (.regWrite idx data) s = .next (writeReg (regOf idx) data s) := by
  rw [exec, execRegWrite, hostWrite_idle hidle, writeEffect_store h5]

/-- A store by the index it is sent to: seven registers have one, under the write masks (R191). -/
theorem writeReg_regOf (idx : BitVec 4) (data : Word) (s : State) :
    writeReg (regOf idx) data s =
      if idx = 0#4 then { s with ctrl := data &&& ctrlMask }
      else if idx = 1#4 then { s with poly := data }
      else if idx = 2#4 then { s with seed := data }
      else if idx = 3#4 then { s with startAddr := data }
      else if idx = 4#4 then { s with endAddr := data }
      else if idx = 8#4 then { s with reflIn := data }
      else if idx = 9#4 then { s with reflWidth := data &&& reflWidthMask }
      else s := by
  rcases idx with ⟨n⟩
  fin_cases n <;> rfl

/-- Settles O11: a read changes the host's value alone, and the value is the register's that the index names. -/
theorem regReadReturns : Obligations.RegReadReturns := by
  intro idx data s
  rw [exec_regRead]
  rcases idx with ⟨n⟩
  fin_cases n <;> rfl

/-- Settles O12: while idle the gate is open, and an index other than CMD's stores. -/
theorem regWriteStores : Obligations.RegWriteStores := by
  intro idx data s hidle h5
  rw [exec_regWrite_store h5 data hidle, writeReg_regOf]
  rfl

/-! ### Commands as writes to CMD -/

/-- Settles O13: both spellings are the dispatch on the word's opcode, behind the gate. -/
theorem cmdWriteRunsCommand : Obligations.CmdWriteRunsCommand := fun c s =>
  (exec_regWrite_cmd c s).trans (exec_cmd c s).symm

/-- Settles O17: a CMD word with bits 7:0 = 0 does what the word 0 does, which is NOP. -/
theorem nopChangesNothing : Obligations.NopChangesNothing := by
  refine ⟨fun _ _ => rfl, fun c s hlow => ?_⟩
  obtain ⟨hsame, -⟩ := commandHighBitsIgnored
  obtain ⟨-, hwrite⟩ := hsame c 0#32 s hlow
  exact hwrite

/-! ### Who writes the configuration -/

/-- A store changes the register of its own index alone (R191). -/
theorem index_of_writeReg_ne (idx : BitVec 4) (d : Word) (s : State) :
    ((writeReg (regOf idx) d s).ctrl ≠ s.ctrl → idx = 0#4) ∧
    ((writeReg (regOf idx) d s).poly ≠ s.poly → idx = 1#4) ∧
    ((writeReg (regOf idx) d s).seed ≠ s.seed → idx = 2#4) ∧
    ((writeReg (regOf idx) d s).startAddr ≠ s.startAddr → idx = 3#4) ∧
    ((writeReg (regOf idx) d s).endAddr ≠ s.endAddr → idx = 4#4) ∧
    ((writeReg (regOf idx) d s).reflIn ≠ s.reflIn → idx = 8#4) ∧
    ((writeReg (regOf idx) d s).reflWidth ≠ s.reflWidth → idx = 9#4) := by
  rw [writeReg_regOf]
  split_ifs <;> simp [*]

/-- A step but a reset is a host word's store while idle, or it keeps the configuration (R150, R191, R192). -/
theorem step_stores_or_keeps_config {s t : State} (hstep : step s = .next t) (hturn : currentTurn s ≠ .reset) :
    (s.busy = false ∧ ∃ w idx d, currentTurn s = .host w ∧ decode w = .regWrite idx d ∧
      t = writeReg (regOf idx) d (popTurn s)) ∨
    (t.ctrl = s.ctrl ∧ t.poly = s.poly ∧ t.seed = s.seed ∧ t.startAddr = s.startAddr ∧ t.endAddr = s.endAddr ∧
      t.reflIn = s.reflIn ∧ t.reflWidth = s.reflWidth) := by
  rcases step_cases hstep with ⟨hreset, -⟩ | ⟨-, rfl⟩ | ⟨w, hw, hexec⟩
  · exact absurd hreset hturn
  · obtain ⟨hctrl, hpoly, hseed, hstart, hend, hin, hwidth, -⟩ := engineStep_frame (popTurn s)
    exact .inr ⟨hctrl, hpoly, hseed, hstart, hend, hin, hwidth⟩
  · rcases exec_host_cases hexec with ⟨idx, -, -, -, rfl⟩ | ⟨-, rfl⟩ | ⟨hidle, idx, d, hdec, -, -, rfl⟩ | ⟨-, opc, -, rfl⟩
    · exact .inr ⟨rfl, rfl, rfl, rfl, rfl, rfl, rfl⟩
    · exact .inr ⟨rfl, rfl, rfl, rfl, rfl, rfl, rfl⟩
    · exact .inl ⟨hidle, w, idx, d, hw, hdec, rfl⟩
    · obtain ⟨hctrl, hpoly, hseed, hstart, hend, hin, hwidth, -⟩ := dispatch_frame opc (popTurn s)
      exact .inr ⟨hctrl, hpoly, hseed, hstart, hend, hin, hwidth⟩

/-- Settles O51: the only writer is a store, and a store changes the register of its own index. -/
theorem configurationWriters : Obligations.ConfigurationWriters := by
  intro s t hstep hturn
  rcases step_stores_or_keeps_config hstep hturn with
    ⟨hidle, w, idx, d, hw, hdec, rfl⟩ | ⟨hctrl, hpoly, hseed, hstart, hend, hin, hwidth⟩
  · have own {k : BitVec 4} (h : idx = k) :
        s.busy = false ∧ ∃ w d, currentTurn s = .host w ∧ decode w = .regWrite k d :=
      ⟨hidle, w, d, hw, h ▸ hdec⟩
    obtain ⟨hctrl, hpoly, hseed, hstart, hend, hin, hwidth⟩ := index_of_writeReg_ne idx d (popTurn s)
    exact ⟨fun h => own (hctrl h), fun h => own (hpoly h), fun h => own (hseed h), fun h => own (hstart h),
      fun h => own (hend h), fun h => own (hin h), fun h => own (hwidth h)⟩
  · exact ⟨absurd hctrl, absurd hpoly, absurd hseed, absurd hstart, absurd hend, absurd hin, absurd hwidth⟩

/-! ### While BUSY -/

/-- RESULT's writers other than reset leave BUSY 0: the FINAL step ends it, and a failing COMPUTE is accepted while idle. -/
theorem result_kept_while_busy {s t : State} (hstep : step s = .next t) (hturn : currentTurn s ≠ .reset)
    (hbusy : s.busy = true) (ht : t.busy = true) : t.result = s.result := by
  by_contra hne
  rcases resultWriters s t hstep hne with hreset | ⟨hengine, hp⟩ | ⟨⟨hidle, -⟩, -⟩
  · exact hturn hreset
  · rw [step_of_engine_final hengine hp hstep, finalStep_busy] at ht
    cases ht
  · rw [hbusy] at hidle
    cases hidle

theorem next_hostWrite_busy {s : State} (hbusy : s.busy = true) (f : State → State) :
    (.next (hostWrite f s) : Host.Outcome State Fault Refusal) = .next s :=
  congrArg _ (hostWrite_busy hbusy f)

/-- Settles O14: every write and every command but NOP is behind the gate, and the writers of the configuration, of RESULT
and of BUSY leave only FINAL to end a computation. -/
theorem writesWhileBusyHaveNoEffect : Obligations.WritesWhileBusyHaveNoEffect := by
  constructor
  · intro s hbusy
    have gated (f : State → State) := next_hostWrite_busy hbusy f
    exact ⟨fun idx data => gated (writeEffect idx data), fun _ => rfl, fun _ => gated computeCommand,
      fun _ => gated validateCommand, fun _ => gated reflectCommand, fun _ _ => gated illegalCommand,
      fun _ _ => gated illegalCommand, fun _ _ => gated illegalCommand, fun _ _ => gated illegalCommand,
      fun _ _ => gated illegalCommand, fun _ _ => gated illegalCommand⟩
  · intro s t hbusy hstep hturn
    have kept {a b : Word} {P : Prop} (h : a ≠ b → s.busy = false ∧ P) : a = b := by
      by_contra hne
      obtain ⟨hidle, -⟩ := h hne
      rw [hbusy] at hidle
      cases hidle
    obtain ⟨hctrl, hpoly, hseed, hstart, hend, -, -⟩ := configurationWriters s t hstep hturn
    exact ⟨kept hctrl, kept hpoly, kept hseed, kept hstart, kept hend, result_kept_while_busy hstep hturn hbusy,
      fun ht => (busy_falls_only_by_reset_or_final hstep hbusy ht).resolve_left hturn⟩

end Sys2Proof.Machine
end

section
/-! Errors (R210 to R225): every step answers, an error is a completion with a code in STATUS and leaves nothing else but the
RESULT of a failing COMPUTE, and a block's step, erroring or not, reaches no other block. -/

namespace Sys2Proof.Machine

/-! ### No trap -/

/-- Settles O44: a step is the run of the current turn, and every turn is a next state. -/
theorem everyStepAnswersNext : Obligations.EveryStepAnswersNext := fun s =>
  runTurn_next (currentTurn s) (popTurn s)

/-! ### Illegal commands -/

/-- An illegal command accepted while idle writes STATUS alone (R213). -/
theorem illegalCommand_idle {s : State} (hidle : s.busy = false) (hs : s.status ∈ statusValues) :
    illegalCommand s = { s with status := 0x32#32 } := by
  rw [illegalCommand_eq, complete_beginCommand_idle hidle hs]
  rfl

/-- The opcodes from 4 on are the illegal ones (R85). -/
theorem dispatch_of_four_le {opc : BitVec 8} (h : 4 ≤ opc.toNat) (s : State) : dispatch opc s = illegalCommand s := by
  have ne {k : BitVec 8} (hk : k.toNat < 4) : opc ≠ k := by
    rintro rfl
    exact absurd h (Nat.not_le.mpr hk)
  exact dispatch_illegal (ne (by decide)) (ne (by decide)) (ne (by decide)) (ne (by decide)) s

/-- Settles O18: while idle the gate is open in each row, and a write to CMD dispatches to the illegal command. -/
theorem illegalCommandReportsThree : Obligations.IllegalCommandReportsThree := by
  intro s hidle hs
  have row : (.next (hostWrite illegalCommand s) : Host.Outcome State Fault Refusal) =
      .next { s with status := 0x32#32 } := by
    rw [hostWrite_idle hidle, illegalCommand_idle hidle hs]
  refine ⟨fun _ _ => row, fun _ _ => row, fun _ _ => row, fun _ _ => row, fun _ _ => row, fun _ _ => row, ?_⟩
  intro c hc
  rw [← cmdOpc_toNat] at hc
  rw [exec_regWrite_cmd, hostWrite_idle hidle, dispatch_of_four_le hc, illegalCommand_idle hidle hs]

/-! ### What an error leaves -/

/-- A command other than NOP that leaves a code in ERR has completed and written nothing else but RESULT, which COMPUTE
clears and every other command keeps (R216): a passing COMPUTE and a REFLECT leave no code. -/
theorem dispatch_error {opc : BitVec 8} {s : State} (h0 : opc ≠ 0#8) (herr : (dispatch opc s).err ≠ 0#4) :
    ∃ (code : BitVec 4) (r : Word), (opc = 1#8 → r = 0#32) ∧ (opc ≠ 1#8 → r = s.result) ∧
      dispatch opc s = { complete code (beginCommand s) with result := r } := by
  rcases dispatch_cases opc s with ⟨hnop, -⟩ | ⟨hcompute, e⟩ | ⟨rfl, e⟩ | ⟨-, e⟩ | ⟨-, h1, -, -, e⟩
  · exact absurd hnop h0
  · rw [computeCommand_eq] at e
    split at e
    · rw [e, startEngine_err, beginCommand_err] at herr
      exact absurd rfl herr
    · exact ⟨1#4, 0#32, fun _ => rfl, absurd hcompute, e⟩
  · obtain ⟨code, -, hv⟩ := validateCommand_cases s
    exact ⟨code, s.result, fun h => absurd h (by decide), fun _ => rfl, e.trans hv⟩
  · rw [e, reflectCommand_err] at herr
    exact absurd rfl herr
  · exact ⟨3#4, s.result, fun h => absurd h h1, fun _ => rfl, e⟩

/-- Settles O52: an error is a completion, and an idle block's step reads no byte of the image. -/
theorem errorsHaveNoOtherEffect : Obligations.ErrorsHaveNoOtherEffect := by
  intro s t opc hinv hacc h0 hstep herr
  have hidle : s.busy = false := hacc.1
  have himage (m : Memory) : step (s.withImage m) = .next (t.withImage m) :=
    step_withImage hstep fun hp => by cases (hinv.idle_of_not_busy hidle).symm.trans hp
  have ht : t = dispatch opc (popTurn s) := step_of_accepts hacc hstep
  obtain ⟨code, r, hclear, hkeep, e⟩ := dispatch_error h0 (ht ▸ herr)
  obtain rfl := ht.trans e
  have hbusy := (complete_busy (beginCommand (popTurn s)) code).trans ((beginCommand_busy (popTurn s)).trans hidle)
  exact ⟨rfl, hbusy, complete_done _ code, hclear, hkeep, himage⟩

/-! ### Several blocks -/

theorem Platform.stepBlock_of_none {p : Platform} {k : Nat} (hk : p.blocks[k]? = none) :
    p.stepBlock k = .next p := by
  rw [Platform.stepBlock, hk]

theorem Platform.stepBlock_of_some {p : Platform} {k : Nat} {s t : State} (hk : p.blocks[k]? = some s)
    (hstep : step s = .next t) : p.stepBlock k = .next { p with blocks := p.blocks.set k t } := by
  simp only [Platform.stepBlock, hk, hstep]

/-- A platform stays well formed where a block is replaced by one over the same image (R75). -/
theorem Platform.wf_set {img : Memory} {p : Platform} (hp : p.wf img) (k : Nat) {t : State} (ht : t.image = img) :
    Platform.wf img { p with blocks := p.blocks.set k t } := by
  obtain ⟨hlen, himg⟩ := hp
  refine ⟨hlen.trans_eq List.length_set.symm, fun u hu => ?_⟩
  rcases List.mem_or_eq_of_mem_set hu with hmem | rfl
  · exact himg u hmem
  · exact ht

/-- Settles O56: the platform's step replaces block k by its own next state, which keeps the image, or, without a block k,
changes nothing. -/
theorem blocksDoNotInterfere : Obligations.BlocksDoNotInterfere := by
  intro img p k hp
  cases hk : p.blocks[k]? with
  | none => exact ⟨p, Platform.stepBlock_of_none hk, hp, rfl, fun _ _ => rfl, nofun⟩
  | some s =>
    obtain ⟨t, hstep⟩ := everyStepAnswersNext s
    obtain ⟨hlt, -⟩ := List.getElem?_eq_some_iff.mp hk
    have himage : t.image = img := (step_image hstep).trans (hp.2 s (List.mem_of_getElem? hk))
    refine ⟨_, Platform.stepBlock_of_some hk hstep, Platform.wf_set hp k himage, List.length_set,
      fun j hj => List.getElem?_set_ne hj.symm, ?_⟩
    rintro _ ⟨⟩
    exact ⟨t, hstep, List.getElem?_set_self hlt⟩

end Sys2Proof.Machine
end

section
/-! Reset and hazards (R240 to R250): a reset turn in any state, and a register write read back by the very next transaction. -/

namespace Sys2Proof.Machine

/-! ### Reset -/

/-- Settles O10: a reset turn's step is `applyReset` on the state with that turn taken off. -/
theorem resetStepRestoresReset : Obligations.ResetStepRestoresReset := by
  intro s ts hturns
  rw [step_cons hturns]
  rfl

/-! ### A write read back -/

/-- A host's turn that presents an encoded instruction executes it. -/
theorem runTurn_host_encode (i : Instr) (s : State) : runTurn (.host (encode i)) s = exec i s := by
  rw [runTurn, decode_encode]

/-- A store leaves the turns alone and does not depend on them. -/
theorem writeReg_with_turns (r : Reg) (d : Word) (s : State) (ts : List Turn) :
    writeReg r d { s with turns := ts } = { writeReg r d s with turns := ts } := by
  cases r <;> rfl

/-- A read after a store to the same RW register: CTRL and REFL_WIDTH have equal write and read masks, and the other five
hold the whole word (R190, R191). -/
theorem readReg_writeReg_same {idx : BitVec 4}
    (hrw : idx = 0#4 ∨ idx = 1#4 ∨ idx = 2#4 ∨ idx = 3#4 ∨ idx = 4#4 ∨ idx = 8#4 ∨ idx = 9#4) (data : Word) (s : State) :
    readReg (regOf idx) (writeReg (regOf idx) data s) =
      data &&& (if idx = 0#4 then ctrlMask else if idx = 9#4 then reflWidthMask else 0xFFFFFFFF#32) := by
  have masked (m : Word) : data &&& m &&& m = data &&& m := by rw [BitVec.and_assoc, BitVec.and_self]
  have whole : data = data &&& 0xFFFFFFFF#32 := BitVec.and_allOnes.symm
  rcases hrw with rfl | rfl | rfl | rfl | rfl | rfl | rfl
  · exact masked ctrlMask
  · exact whole
  · exact whole
  · exact whole
  · exact whole
  · exact whole
  · exact masked reflWidthMask

/-- Settles O16: the write's turn stores, the read's turn gives the host the stored register, and no other turn comes
between. -/
theorem writeVisibleToNextRead : Obligations.WriteVisibleToNextRead := by
  intro idx data s ts hidle hrw
  have h5 : idx ≠ 5#4 := by rintro rfl; revert hrw; decide
  have hwrite : runTurn (.host (encode (.regWrite idx data))) { s with turns := .host (encode (.regRead idx 0#32)) :: ts } =
      .next { writeReg (regOf idx) data s with turns := .host (encode (.regRead idx 0#32)) :: ts } := by
    rw [runTurn_host_encode, ← writeReg_with_turns]
    exact exec_regWrite_store h5 data hidle
  have hread := (runTurn_host_encode (.regRead idx 0#32) { writeReg (regOf idx) data s with turns := ts }).trans
    (exec_regRead idx 0#32 _)
  refine ⟨_, (run_turn_cons hwrite 1).trans (run_turn_cons hread 0), rfl, ?_⟩
  rw [← writeReg_with_turns]
  exact readReg_writeReg_same hrw data { s with turns := ts }

end Sys2Proof.Machine
end
